-- ==== Sys2Proof/Word.lean ====
section
/-! DEFINITION. The word types of the block: bytes of frames and payloads, 16-bit fields, 32-bit registers (00_scope R9, R10). -/

namespace Sys2Proof

/-- A byte of a frame or of a payload, and an 8-bit field. -/
abbrev Byte := BitVec 8

/-- A 16-bit field: register address, register count, register value, CRC, payload field. -/
abbrev Half := BitVec 16

/-- A 32-bit register or command word. -/
abbrev Word := BitVec 32

end Sys2Proof
end

