-- ==== Sys2Proof/Syntax.lean ====
section
/-! DEFINITION. The commands of the block, one constructor per row of spec/opcode_table.json (30_encoding R82).
A byte argument is a bit vector; a catalog position, a table number and a payload offset are numbers the rules compare
and add to without wrapping (30_encoding R81, 42_decode R150), so they are naturals, bounded by `Instr.wf`. -/

namespace Sys2Proof

inductive Instr where
  /-- NOP, R190. -/
  | nop
  /-- CRC_INIT, R101. -/
  | crcInit
  /-- CRC_BYTE b, R102: `b` is argument A. -/
  | crcByte (b : Byte)
  /-- ENC_READ, R122. -/
  | encRead
  /-- ENC_WRITE, R123. -/
  | encWrite
  /-- ENC_BLK p, R124: the catalog position `p` is argument A. -/
  | encBlk (p : Nat)
  /-- RX_CLEAR, R125. -/
  | rxClear
  /-- RX_PUSH b, R126: `b` is argument A. -/
  | rxPush (b : Byte)
  /-- DEC_BLK p, R160: the catalog position `p` is argument A. -/
  | decBlk (p : Nat)
  /-- FLD_S16 o, R161: the payload offset `o` is argument B. -/
  | fldS16 (o : Nat)
  /-- FLD_U16 o, R162: the payload offset `o` is argument B. -/
  | fldU16 (o : Nat)
  /-- FLD_BOOL o, R163: the payload offset `o` is argument B. -/
  | fldBool (o : Nat)
  /-- FLD_ENUM t, o, R164: the table number `t` is argument A, the payload offset `o` is argument B. -/
  | fldEnum (t : Nat) (o : Nat)
  /-- OUT_POP, R191. -/
  | outPop
  /-- OUT_CLEAR, R192. -/
  | outClear
  /-- CLR_ERR, R194. -/
  | clrErr
  /-- SOFT_RESET, R195. -/
  | softReset
  deriving DecidableEq, Repr

end Sys2Proof
end

