-- ==== Sys2Proof/WellFormed.lean ====
section
/-! DEFINITION. When a command's arguments fit the fields of the command word (30_encoding R80, R81). -/

namespace Sys2Proof

/-- A number that argument A, bits [15:8] of the command word, can hold. -/
def fitsA (n : Nat) : Bool := n < 256

/-- A number that argument B, bits [31:16] of the command word, can hold. -/
def fitsB (n : Nat) : Bool := n < 65536

/-- Every argument of the command fits its field. -/
def Instr.wf : Instr → Bool
  | .nop | .crcInit | .crcByte _ | .encRead | .encWrite | .rxClear | .rxPush _ => true
  | .outPop | .outClear | .clrErr | .softReset => true
  | .encBlk p | .decBlk p => fitsA p
  | .fldS16 o | .fldU16 o | .fldBool o => fitsB o
  | .fldEnum t o => fitsA t && fitsB o

end Sys2Proof
end

