-- ==== Sys2Proof/Decode.lean ====
section
/-! DEFINITION. The command word (30_encoding R80 to R84): its fields, the decoder, total on every word and refusing an
illegal opcode by name, and the encoder. Bits of a field that R82 marks "ignored" have no effect (R83): the decoder drops
them, the encoder writes them zero. -/

namespace Sys2Proof

/-- OP, bits [7:0] of the command word (R80). -/
def opField (w : Word) : Byte := w.extractLsb' 0 8

/-- A, bits [15:8] of the command word (R80). -/
def aField (w : Word) : Byte := w.extractLsb' 8 8

/-- B, bits [31:16] of the command word (R80). -/
def bField (w : Word) : Half := w.extractLsb' 16 16

/-- `B << 16 | A << 8 | OP` (R80). -/
def cmdWord (op a : Byte) (b : Half) : Word :=
  (b.setWidth 32 <<< 16) ||| (a.setWidth 32 <<< 8) ||| op.setWidth 32

/-- Why a word is no command. -/
inductive DecodeError where
  /-- The opcode is none of R82's: the block raises ILLEGAL_OP for it (R84). -/
  | illegalOp (op : Byte)
  deriving DecidableEq, Repr

/-- The OP column of R82: every other value is illegal (R84). -/
def legalOpcodes : List Nat :=
  [0x00, 0x01, 0x02, 0x10, 0x11, 0x12, 0x20, 0x21, 0x30, 0x31, 0x32, 0x33, 0x34, 0x40, 0x41, 0x50, 0x5A]

/-- The opcode map of R82: the command is selected by OP alone; A and B are taken as they stand (R81). -/
def decode (w : Word) : Except DecodeError Instr :=
  let a := aField w
  let o := (bField w).toNat
  match (opField w).toNat with
  | 0x00 => .ok .nop
  | 0x01 => .ok .crcInit
  | 0x02 => .ok (.crcByte a)
  | 0x10 => .ok .encRead
  | 0x11 => .ok .encWrite
  | 0x12 => .ok (.encBlk a.toNat)
  | 0x20 => .ok .rxClear
  | 0x21 => .ok (.rxPush a)
  | 0x30 => .ok (.decBlk a.toNat)
  | 0x31 => .ok (.fldS16 o)
  | 0x32 => .ok (.fldU16 o)
  | 0x33 => .ok (.fldBool o)
  | 0x34 => .ok (.fldEnum a.toNat o)
  | 0x40 => .ok .outPop
  | 0x41 => .ok .outClear
  | 0x50 => .ok .clrErr
  | 0x5A => .ok .softReset
  | _ => .error (.illegalOp (opField w))

/-- The OP column of R82. -/
def Instr.opcode : Instr → Byte
  | .nop => 0x00
  | .crcInit => 0x01
  | .crcByte _ => 0x02
  | .encRead => 0x10
  | .encWrite => 0x11
  | .encBlk _ => 0x12
  | .rxClear => 0x20
  | .rxPush _ => 0x21
  | .decBlk _ => 0x30
  | .fldS16 _ => 0x31
  | .fldU16 _ => 0x32
  | .fldBool _ => 0x33
  | .fldEnum _ _ => 0x34
  | .outPop => 0x40
  | .outClear => 0x41
  | .clrErr => 0x50
  | .softReset => 0x5A

/-- The A column of R82; an ignored field is written zero (R83). -/
def Instr.argA : Instr → Byte
  | .crcByte b | .rxPush b => b
  | .encBlk p | .decBlk p => BitVec.ofNat 8 p
  | .fldEnum t _ => BitVec.ofNat 8 t
  | .nop | .crcInit | .encRead | .encWrite | .rxClear => 0
  | .fldS16 _ | .fldU16 _ | .fldBool _ => 0
  | .outPop | .outClear | .clrErr | .softReset => 0

/-- The B column of R82; an ignored field is written zero (R83). -/
def Instr.argB : Instr → Half
  | .fldS16 o | .fldU16 o | .fldBool o | .fldEnum _ o => BitVec.ofNat 16 o
  | .nop | .crcInit | .crcByte _ | .encRead | .encWrite | .encBlk _ => 0
  | .rxClear | .rxPush _ | .decBlk _ => 0
  | .outPop | .outClear | .clrErr | .softReset => 0

/-- The command word of a well-formed command (R80, R82). -/
def encode (i : Instr) : Word := cmdWord i.opcode i.argA i.argB

/-- The command a table row's bits stand for: the block's one command word, the bits above `nbits` zero. -/
def decodeTableWord (nbits w : Nat) : Option Instr :=
  (decode (BitVec.ofNat 32 (w % 2 ^ nbits))).toOption

end Sys2Proof
end

