-- ==== Sys2Proof/Machine/Bits.lean ====
section
/-! DEFINITION. The bit and byte-order helpers of 00_scope R10: high and low byte of a 16-bit value, the big-endian join of two
bytes, sign and zero extension, the two's-complement reading. -/

namespace Sys2Proof.Machine

/-- `v[15:8]`, the byte the wire carries first (20_memory R66). -/
def hiByte (v : Half) : Byte := v.extractLsb' 8 8

/-- `v[7:0]`. -/
def loByte (v : Half) : Byte := v.extractLsb' 0 8

/-- `h << 8 | l`: a big-endian pair of bytes (20_memory R67). -/
def joinBytes (h l : Byte) : Half := (h.setWidth 16 <<< 8) ||| l.setWidth 16

/-- `sext_32(v)` (R10). -/
def sext32 (v : Half) : Word := v.signExtend 32

/-- `zext_32(v)` (R10). -/
def zext32 (v : Half) : Word := v.setWidth 32

/-- `s16(v)`: `v - 65536` if `v[15] = 1`, else `v` (R10). -/
def s16 (v : Half) : Int := if v.getLsbD 15 then (v.toNat : Int) - 65536 else v.toNat

end Sys2Proof.Machine
end

