-- ==== Sys2Proof/Config.lean ====
section
/-! DEFINITION. The implementation parameters of 00_scope R9: their types, the values the spec fixes, and the free values
that stand for the parameters it leaves OPEN. A free value is an opaque constant: nothing can be proved of which value it is. -/

namespace Sys2Proof.Config

/-- The kind of a field descriptor (10_state R28). Only ENUM fields have a table number. -/
inductive FieldKind where
  | scaled
  | uint
  | bool
  | enum (table : Nat)
  | ident
  deriving DecidableEq, Repr, Inhabited

/-- A field descriptor (10_state R28): name, kind and byte offset in the payload.
The width of `off` is not stated: a natural number (DESIGN CHOICE, log 11). -/
structure FieldDesc where
  name : Half
  kind : FieldKind
  off  : Nat
  deriving DecidableEq, Repr, Inhabited

/-- A block descriptor of the catalog ROM (10_state R27).
The form of `bid` is not stated and no rule reads it: a natural number (DESIGN CHOICE, log 11). -/
structure BlockDesc where
  bid    : Nat
  fc     : Byte
  start  : Half
  count  : Half
  explen : Nat
  fields : List FieldDesc
  deriving DecidableEq, Repr, Inhabited

/-- An identity decoding, P_IDENT_V8 or P_IDENT_OTHER (10_state R35), as plain data (DESIGN CHOICE, log 5).
`unknown`: not filled in, an unknown function of the payload (42_decode R155, U5).
`reorder offs`: filled in as the payload bytes at the offsets `offs`, in that order. -/
inductive IdentScheme where
  | unknown
  | reorder (offs : List Nat)
  deriving DecidableEq, Repr, Inhabited

/-- The number of catalog blocks, P_NBLK (00_scope R9, 10_state R27). -/
abbrev nBlk : Nat := 14

/-- The contents of the ROM space that R9 leaves OPEN with no default: the catalog, the tables from 3 up,
the identity parameters. That the catalog has exactly 14 entries (10_state R29 condition 1) holds by its type. -/
structure Rom where
  catalog     : Vector BlockDesc nBlk
  extraTables : List (List String)
  identVerOff : Nat
  identMaxLen : Nat
  identV8     : IdentScheme
  identOther  : IdentScheme
  deriving DecidableEq, Repr, Inhabited

/-- The parameters a run of the block is given before it starts (00_scope R9, 70_reset R243).
`rom = none`: the OPEN parameters are not filled in, and the free value `openRom` stands for them (DESIGN CHOICE, log 4). -/
structure Params where
  rxMax    : Nat
  outDepth : Nat
  rom      : Option Rom
  deriving DecidableEq, Repr

/-- The defaults of 00_scope R9 (D17, D24); the parameters without a default are not filled in (log 3). -/
def defaultParams : Params := { rxMax := 256, outDepth := 64, rom := none }

/-- FREE VALUE (log 4): the OPEN contents of the ROM space where they are not filled in (D39, D23, D28). -/
opaque openRom : Rom

/-- FREE VALUE (log 6): the label of code `code` of table `table` where 10_state R33 leaves it OPEN (D40). -/
opaque openLabel (table code : Nat) : String

/-- FREE VALUE (log 5): the identity decoding for version 8 where it is not filled in (D41). -/
opaque identV8 (payload : List Byte) : List Byte

/-- FREE VALUE (log 5): the identity decoding for every other version where it is not filled in (D41). -/
opaque identOther (payload : List Byte) : List Byte

end Sys2Proof.Config
end

