-- ==== Sys2Proof/Machine/State.lean ====
section
/-! DEFINITION. The state of the block (10_state R42), what the host does to it (20_memory R60, R61, 70_reset R240), why a
step can stop, and the state after reset (10_state R45). -/

namespace Sys2Proof.Machine

/-- An output record (10_state R38). -/
structure Record where
  kind  : Byte
  name  : Half
  value : Word
  deriving DecidableEq, Repr

/-- What the outside world does to the block, one event at a time (00_scope R14). -/
inductive BusAccess where
  /-- A host read of `bytes` bytes at the offset `off`: `MemRead(off, bytes)` (R11, R61). -/
  | read (off bytes : Nat)
  /-- A host write of `bytes` bytes at the offset `off`: `MemWrite(off, bytes, v)` (R11, R61). -/
  | write (off bytes : Nat) (v : Word)
  /-- The power-on or hardware reset (R240, R222), driven from outside the block (log 9). -/
  | hardReset
  deriving DecidableEq, Repr

/-- The registers of the register map (10_state R22). -/
inductive Reg where
  | cmd | status | cfg | catlen
  | reqSlave | reqFc | reqAddr | reqCount | reqValue
  | crc | txlen | rxlen | outcnt | outHead0 | outHead1
  | txb (i : Nat)
  | rxb (i : Nat)
  deriving DecidableEq, Repr

/-- The error codes a command raises (60_exceptions R210). -/
inductive ErrCode where
  | illegalOp | badPos | lenMismatch | offsetRange | rxFull | outFull | outEmpty | badTable
  deriving DecidableEq, Repr

/-- The block has no trap and nothing that stops it (60_exceptions R215, R216): no step ends in a fault, so there is no
reason for one (log 10). Safe: nothing is cut short. -/
inductive Fault where
  deriving DecidableEq, Repr

/-- What the spec asks the model to refuse. -/
inductive Refusal where
  /-- Raised by an arm of `exec` for a command without a meaning; there is none. Safe. -/
  | notModelled (mnemonic : String)
  /-- Raised by a host access that is not 32 bits wide at a multiple of 4: "The model refuses any other access" (R61, U8). Safe. -/
  | badAccess
  /-- Raised when the parameters of the run are not well formed: "A model given a catalog that is not well formed refuses it" (R29, U4).
  Raised by every step where they are given so, and by ENC_BLK and DEC_BLK where the free ROM contents are so (log 7). Safe. -/
  | illFormedConfig
  /-- Raised by DEC_BLK when a filled-in identity scheme gives more than P_IDENT_MAXLEN bytes: "the parameter is broken, and the model
  refuses it" (R156, U14; log 8). Safe. -/
  | identTooLong
  deriving DecidableEq, Repr

/-- The whole state: the tuple of R42, the constant parameters R42 counts with it, and the model's own view of the host:
the accesses not yet served (log 1) and the values its reads have returned (log 2), each oldest first. -/
structure State where
  /-- STATUS.ERR (R23). -/
  err      : BitVec 4
  /-- STATUS.STICKY (R23). -/
  sticky   : Bool
  /-- CFG.ENABLE (R24). -/
  enable   : BitVec 14
  /-- CFG.LOCK (R24). -/
  lock     : Bool
  /-- REQ_SLAVE (R26). -/
  reqSlave : Byte
  /-- REQ_FC (R26). -/
  reqFc    : Byte
  /-- REQ_ADDR (R26). -/
  reqAddr  : Half
  /-- REQ_COUNT (R26). -/
  reqCount : Half
  /-- REQ_VALUE (R26). -/
  reqValue : Half
  /-- CRC, the running CRC (R32). -/
  crc      : Half
  /-- TX, the request frame encoded last (R36). -/
  tx       : List Byte
  /-- RX, the response payload (R37). -/
  rx       : List Byte
  /-- OUT, the output records, oldest first (R38). -/
  out      : List Record
  /-- The constant parameters of the run (R9, R42, R243). -/
  params   : Config.Params
  /-- MODEL'S OWN: host accesses issued and not yet served, oldest first (log 1). -/
  bus      : List BusAccess
  /-- MODEL'S OWN: the values the host's reads have returned, oldest first (log 2). -/
  answers  : List Word
  deriving DecidableEq, Repr

/-- The state after reset under given parameters: the table of R45. -/
def State.resetWith (p : Config.Params) : State :=
  { err := 0, sticky := false, enable := 0, lock := false
    reqSlave := 0, reqFc := 0, reqAddr := 0, reqCount := 0, reqValue := 0
    crc := 0xFFFF, tx := [], rx := [], out := []
    params := p, bus := [], answers := [] }

/-- The state after reset (R45, R240), with the default parameters of R9 (log 3). -/
def State.reset : State := State.resetWith Config.defaultParams

/-- What a step answers. -/
abbrev Result := Host.Outcome State Fault Refusal

end Sys2Proof.Machine
end

