-- ==== Sys2Proof/Machine/Flags.lean ====
section
/-! DEFINITION. The only flags of the block, STATUS.ERR and STATUS.STICKY (10_state R23, R41), and the codes ERR takes
(60_exceptions R210). -/

namespace Sys2Proof.Machine

/-- The code of an error (R210). Codes 9 to 15 are reserved and no error has one (U11). -/
def ErrCode.code : ErrCode → BitVec 4
  | .illegalOp => 1
  | .badPos => 2
  | .lenMismatch => 3
  | .offsetRange => 4
  | .rxFull => 5
  | .outFull => 6
  | .outEmpty => 7
  | .badTable => 8

/-- ERR becomes 0, STICKY stays: how a command that completes leaves the flags (R213). -/
def flagsOnComplete (s : State) : State := { s with err := 0 }

/-- ERR becomes the code, STICKY becomes 1: how a command that raises leaves the flags (R211). -/
def flagsOnRaise (c : ErrCode) (s : State) : State := { s with err := c.code, sticky := true }

/-- Both flags become 0: how CLR_ERR, SOFT_RESET and reset leave them (R213). -/
def flagsCleared (s : State) : State := { s with err := 0, sticky := false }

/-- STATUS as it reads: ERR in [3:0], STICKY in [7], every other bit 0 (R23). -/
def statusWord (s : State) : Word :=
  s.err.setWidth 32 ||| (if s.sticky then 0x80 else 0)

end Sys2Proof.Machine
end

