-- ==== Sys2Proof/Machine/Ops.lean ====
section
/-! DEFINITION. The named operations on the state: completing a command, raising an error (the block's one form of taking an
exception; there is no return from it, 60_exceptions R215, R216), the writes to CRC, TX, RX and OUT, and the two resets. -/

namespace Sys2Proof.Machine

/-- The command completes in the state `s`: `ERR <- 0` (60_exceptions R210, R213). -/
def complete (s : State) : Result := .next (flagsOnComplete s)

/-- `raise E`: `ERR <- code`, `STICKY <- 1`, nothing else (R211). The `info` of the spec's raise is a trace and is not stored (R210). -/
def raise (c : ErrCode) (s : State) : Result := .next (flagsOnRaise c s)

/-- `CRC <- c` (40_crc R101, R102). -/
def setCrc (c : Half) (s : State) : State := { s with crc := c }

/-- `TX <- f`: the frame is replaced completely (41_framer R120). -/
def setTx (f : List Byte) (s : State) : State := { s with tx := f }

/-- `RX <- bs` (41_framer R125, R126). -/
def setRx (bs : List Byte) (s : State) : State := { s with rx := bs }

/-- `OUT <- rs` (43_control R191, R192). -/
def setOut (rs : List Record) (s : State) : State := { s with out := rs }

/-- OUT has no room for `n` more records: `OUTCNT + n > P_OUTDEPTH` (42_decode R159). -/
def outLacks (n : Nat) (s : State) : Bool := s.params.outDepth < s.out.length + n

/-- Emit all the records at the back of OUT and complete, or raise OUT_FULL and emit none (R159, 10_state R38). -/
def emitAll (recs : List Record) (s : State) : Result :=
  if outLacks recs.length s then raise .outFull s
  else complete (setOut (s.out ++ recs) s)

/-- SOFT_RESET: every item at its reset value but CFG (43_control R195). -/
def softResetState (s : State) : State :=
  { State.resetWith s.params with
    enable := s.enable, lock := s.lock, bus := s.bus, answers := s.answers }

/-- The power-on or hardware reset: every item at its reset value (70_reset R240); the parameters never change (10_state R45),
and what the host has issued and been answered is the host's (log 9). -/
def hardResetState (s : State) : State :=
  { State.resetWith s.params with bus := s.bus, answers := s.answers }

/-- The byte buffers are within their bounds: TXLEN is 0, 8 or 11 (10_state R36), RXLEN at most P_RXMAX (R37). The block has no
other byte storage (log 15). -/
def Memory.wf (s : State) : Bool :=
  (s.tx.length == 0 || s.tx.length == 8 || s.tx.length == 11) && s.rx.length ≤ s.params.rxMax

end Sys2Proof.Machine
end

