-- ==== Sys2Proof/Machine/Control.lean ====
section
/-! DEFINITION. The control commands and the output FIFO (43_control). -/

namespace Sys2Proof.Machine

/-- NOP (R190): clears ERR, keeps STICKY. -/
def execNop (s : State) : Result := complete s

/-- OUT_POP (R191): removes the front record, or raises OUT_EMPTY. -/
def execOutPop (s : State) : Result :=
  match s.out with
  | [] => raise .outEmpty s
  | _ :: rest => complete (setOut rest s)

/-- OUT_CLEAR (R192). -/
def execOutClear (s : State) : Result := complete (setOut [] s)

/-- CLR_ERR (R194). -/
def execClrErr (s : State) : Result := .next (flagsCleared s)

/-- SOFT_RESET (R195). -/
def execSoftReset (s : State) : Result := .next (softResetState s)

end Sys2Proof.Machine
end

