-- ==== Sys2Proof/Machine/Operands.lean ====
section
/-! DEFINITION. Where a command's operands come from beside its own fields (10_state R20): the ROM space with the catalog, the
tables and the identity parameters, the position lookup, the field fetch from the payload; and when the parameters are
well formed (R29, R30). -/

namespace Sys2Proof.Machine

open Sys2Proof.Config

/-! ## The ROM space -/

/-- The ROM contents of the run: those filled in, else the free ones (log 4). -/
def activeRom (p : Params) : Rom := p.rom.getD openRom

/-- Table 0, operation mode (10_state R33). -/
def modeLabels : List String := ["Off", "Heat", "Cool", "Auto", "Service"]

/-- Table 1, control state: 14 labels, of which codes 1 to 12 are OPEN (R33, log 6). -/
def controlLabels : List String :=
  "Off" :: ((List.range 12).map (fun i => openLabel 1 (i + 1)) ++ ["Defrost"])

/-- Table 2, user function: 7 labels, of which codes 1 to 5 are OPEN (R33, log 6). -/
def userLabels : List String :=
  "None" :: ((List.range 5).map (fun i => openLabel 2 (i + 1)) ++ ["Cooker Hood"])

/-- P_NENUM, the number of enumeration tables: the three named ones and P_NENUM_EXTRA more (00_scope R9, R33). -/
def nEnum (r : Rom) : Nat := r.extraTables.length + 3

/-- P_ENUM[t], the labels of table `t` (R33). Empty past the last table, where no rule reads it.
How many labels an extra table may hold is not bounded: DESIGN CHOICE (log 19). -/
def enumTable (r : Rom) (t : Nat) : List String :=
  match t with
  | 0 => modeLabels
  | 1 => controlLabels
  | 2 => userLabels
  | t + 3 => r.extraTables.getD t []

/-! ## Well-formed parameters -/

/-- The number of records the field emits at most (R30). -/
def fieldNrec (r : Rom) (f : FieldDesc) : Nat :=
  match f.kind with
  | .ident => (r.identMaxLen + 3) / 4 + 1
  | .scaled | .uint | .bool | .enum _ => 1

/-- `nrec(b)` (R30). -/
def nrec (r : Rom) (b : BlockDesc) : Nat := (b.fields.map (fieldNrec r)).sum

/-- The field is of kind IDENT. -/
def isIdent (f : FieldDesc) : Bool := f.kind == .ident

/-- R29 conditions 4, 5 and 7 for one field of the block `b`. -/
def fieldOk (r : Rom) (b : BlockDesc) (f : FieldDesc) : Bool :=
  (f.name != 0xFFFF) &&
  match f.kind with
  | .ident => true
  | .enum t => f.off + 2 ≤ b.explen && t < nEnum r
  | .scaled | .uint | .bool => f.off + 2 ≤ b.explen

/-- R29 conditions 2 to 8 for one block. -/
def blockOk (p : Params) (r : Rom) (b : BlockDesc) : Bool :=
  (b.fc == 3 || b.fc == 4) &&
  b.explen ≤ p.rxMax &&
  b.fields.all (fieldOk r b) &&
  (b.fields.filter isIdent).length ≤ 1 &&
  (!b.fields.any isIdent || r.identVerOff + 2 ≤ b.explen) &&
  nrec r b ≤ p.outDepth

/-- R29, with its last condition R30: P_CATALOG is well formed. Condition 1, 14 entries, holds by the type of the catalog. -/
def romOk (p : Params) (r : Rom) : Bool := r.catalog.toList.all (blockOk p r)

/-- The ranges R9 gives P_RXMAX and P_OUTDEPTH. -/
def rangesOk (p : Params) : Bool :=
  2 ≤ p.rxMax && p.rxMax ≤ 65535 && 1 ≤ p.outDepth && p.outDepth ≤ 65535

/-- The parameters the run was given are admitted (R9, R29, U4). ROM contents that are not filled in are not judged here but
where a command reads them (log 7). -/
def paramsAdmitted (p : Params) : Bool :=
  rangesOk p && (match p.rom with | none => true | some r => romOk p r)

/-! ## The position lookup -/

/-- The blocks ENABLE selects, in ascending order: the Catalog (10_state R31). -/
def enabledBlocks (en : BitVec 14) : List (Fin nBlk) :=
  (List.finRange nBlk).filter (fun b => en.getLsbD b.val)

/-- CATLEN, the number of enabled blocks (R25). -/
def catlen (s : State) : Nat := (enabledBlocks s.enable).length

/-- `enabled(p)`, defined for `p < CATLEN` (R31). -/
def enabledAt (s : State) (p : Nat) : Option (Fin nBlk) := (enabledBlocks s.enable)[p]?

/-- `CAT[b]` (R27). -/
def catEntry (s : State) (b : Fin nBlk) : BlockDesc := (activeRom s.params).catalog.get b

/-- What ENC_BLK and DEC_BLK begin with: BAD_POS when `p >= CATLEN`, else go on with `CAT[enabled(p)]` (41_framer R124, 42_decode R160).
ROM contents that are not well formed are refused where they are read (R29, log 7). -/
def withBlock (p : Nat) (s : State) (k : BlockDesc → Result) : Result :=
  match enabledAt s p with
  | none => raise .badPos s
  | some b => if romOk s.params (activeRom s.params) then k (catEntry s b) else .refused .illFormedConfig

/-! ## The payload -/

/-- `raw(o)`, big-endian (42_decode R150, 20_memory R67). The spec defines it for `o + 2 <= RXLEN` alone, and every command checks
that, or the length its field offsets were checked against, first (log 16). -/
def raw (rx : List Byte) (o : Nat) : Half := joinBytes (rx.getD o 0) (rx.getD (o + 1) 0)

/-- A payload field at `o` does not lie within RX: `o + 2 > RXLEN`, without wrap-around (R150). -/
def offsetOut (o : Nat) (s : State) : Bool := s.rx.length < o + 2

end Sys2Proof.Machine
end

