-- ==== Sys2Proof/Machine/Decoder.lean ====
section
/-! DEFINITION. The field unpacker: the five conversions (42_decode R151 to R156), the records of a block (R157), DEC_BLK and
the four FLD commands. No range check is applied to a value and no CRC is checked (R165). -/

namespace Sys2Proof.Machine

open Sys2Proof.Config

/-! ## Conversions -/

/-- conv_SCALED (R151): the record carries the signed integer, the divisor 100 is fixed. -/
def convScaled (name : Half) (r : Half) : Record := { kind := 1, name := name, value := sext32 r }

/-- conv_UINT (R152). -/
def convUint (name : Half) (r : Half) : Record := { kind := 2, name := name, value := zext32 r }

/-- conv_BOOL (R153): every one of the 16 bits counts. -/
def convBool (name : Half) (r : Half) : Record :=
  { kind := 3, name := name, value := if r = 0 then 0 else 1 }

/-- The code is not below the length of the table: its label is "Unknown" (R154, 10_state R34). The comparison stands for a table of
any length, also one of 65536 labels or more, in which the code 0xFFFF is known (log 19). -/
def enumUnknown (rom : Rom) (t : Nat) (r : Half) : Bool := (enumTable rom t).length ≤ r.toNat

/-- conv_ENUM (R154): `u << 31 | t << 16 | r`. A table number is written as the formula has it, whatever its size (log 12). -/
def convEnum (rom : Rom) (name : Half) (t : Nat) (r : Half) : Record :=
  { kind := 4, name := name
    value := (if enumUnknown rom t r then 1#32 <<< 31 else 0#32) ||| (BitVec.ofNat 32 t <<< 16) ||| zext32 r }

/-! ## Identity -/

/-- The version field is 8 (R155): every other value selects the other scheme. -/
def identIsV8 (rom : Rom) (rx : List Byte) : Bool := raw rx rom.identVerOff == 8

/-- The byte string a scheme gives. A scheme that is not filled in is the free function, kept to the length 10_state R35 gives
it; one that is filled in gives the payload bytes at its offsets (log 5). -/
def applyScheme (free : List Byte → List Byte) (maxLen : Nat) (sch : IdentScheme) (rx : List Byte) : List Byte :=
  match sch with
  | .unknown => (free rx).take maxLen
  | .reorder offs => offs.filterMap (fun o => rx[o]?)

/-- `S <- scheme(RX)` with the scheme the version selects (R155). -/
def identString (rom : Rom) (rx : List Byte) : List Byte :=
  if identIsV8 rom rx then applyScheme identV8 rom.identMaxLen rom.identV8 rx
  else applyScheme identOther rom.identMaxLen rom.identOther rx

/-- The VALUE of a chunk record: byte k in [8k+7:8k], a missing byte 0 (R156, 10_state R39). -/
def chunkValue (c : List Byte) : Word :=
  (c.getD 0 0).setWidth 32 ||| ((c.getD 1 0).setWidth 32 <<< 8) |||
    ((c.getD 2 0).setWidth 32 <<< 16) ||| ((c.getD 3 0).setWidth 32 <<< 24)

/-- The chunk records of a string, 4 bytes a record (R156). -/
def chunkRecs (name : Half) (str : List Byte) : List Record :=
  (List.range ((str.length + 3) / 4)).map
    (fun k => { kind := 5, name := name, value := chunkValue (str.drop (4 * k)) })

/-- The records of an identity string: its chunks, then the end record `v8 << 16 | L` (R156; a long `L` as the formula has it, log 12). -/
def identRecs (name : Half) (v8 : Bool) (str : List Byte) : List Record :=
  chunkRecs name str ++
    [{ kind := 6, name := name
       value := (if v8 then 1#32 <<< 16 else 0#32) ||| BitVec.ofNat 32 str.length }]

/-- The identity string is longer than P_IDENT_MAXLEN: the parameter is broken (R156, U14). -/
def identBroken (rom : Rom) (rx : List Byte) : Bool := rom.identMaxLen < (identString rom rx).length

/-! ## The records of a block -/

/-- `fieldrecs(fd)` (R157). -/
def fieldRecs (rom : Rom) (rx : List Byte) (f : FieldDesc) : List Record :=
  match f.kind with
  | .scaled => [convScaled f.name (raw rx f.off)]
  | .uint => [convUint f.name (raw rx f.off)]
  | .bool => [convBool f.name (raw rx f.off)]
  | .enum t => [convEnum rom f.name t (raw rx f.off)]
  | .ident => identRecs f.name (identIsV8 rom rx) (identString rom rx)

/-- The records of a block: those of its fields, in list order (R157). -/
def blockRecs (rom : Rom) (rx : List Byte) (d : BlockDesc) : List Record :=
  d.fields.flatMap (fieldRecs rom rx)

/-- The name of a record an FLD command emits (R161). -/
def anonymous : Half := 0xFFFF

/-! ## Commands -/

/-- Decode the payload as the block `d`: LEN_MISMATCH first (R158), then all of its records or OUT_FULL (R159). A broken identity
parameter is refused once the records are needed (R156, log 8). -/
def decodeBlock (d : BlockDesc) (s : State) : Result :=
  if s.rx.length ≠ d.explen then raise .lenMismatch s
  else if d.fields.any isIdent && identBroken (activeRom s.params) s.rx then .refused .identTooLong
  else emitAll (blockRecs (activeRom s.params) s.rx d) s

/-- DEC_BLK p (R160): BAD_POS, then LEN_MISMATCH, then OUT_FULL (R214). -/
def execDecBlk (p : Nat) (s : State) : Result := withBlock p s (fun d => decodeBlock d s)

/-- How every FLD command ends: OFFSET_RANGE, then OUT_FULL, then the one record of the field at `o` (R161 to R164). -/
def emitField (conv : Half → Record) (o : Nat) (s : State) : Result :=
  if offsetOut o s then raise .offsetRange s
  else emitAll [conv (raw s.rx o)] s

/-- FLD_S16 o (R161). -/
def execFldS16 (o : Nat) (s : State) : Result := emitField (convScaled anonymous) o s

/-- FLD_U16 o (R162). -/
def execFldU16 (o : Nat) (s : State) : Result := emitField (convUint anonymous) o s

/-- FLD_BOOL o (R163). -/
def execFldBool (o : Nat) (s : State) : Result := emitField (convBool anonymous) o s

/-- FLD_ENUM t, o (R164): BAD_TABLE comes first (R214). -/
def execFldEnum (t o : Nat) (s : State) : Result :=
  if nEnum (activeRom s.params) ≤ t then raise .badTable s
  else emitField (convEnum (activeRom s.params) anonymous t) o s

end Sys2Proof.Machine
end

