-- ==== Sys2Proof/Machine/Crc.lean ====
section
/-! DEFINITION. The CRC-16/Modbus generator: crc_step and crc16 (40_crc R100, R103), CRC_INIT and CRC_BYTE. No command checks
the CRC of a response (R105). -/

namespace Sys2Proof.Machine

/-- One of the 8 shifts of R100: a logical shift right by one, then the XOR with 0xA001 if the low bit was set. -/
def crcShift (c : Half) : Half :=
  if c.getLsbD 0 then (c >>> 1) ^^^ 0xA001 else c >>> 1

/-- `n` shifts. -/
def crcShifts : Nat → Half → Half
  | 0, c => c
  | n + 1, c => crcShifts n (crcShift c)

/-- `crc_step(c, b)` (R100). -/
def crcStep (c : Half) (b : Byte) : Half := crcShifts 8 (c ^^^ b.setWidth 16)

/-- The initial value of the CRC (R103). -/
def crcInitial : Half := 0xFFFF

/-- `crc16(L)` (R103). -/
def crc16 (bs : List Byte) : Half := bs.foldl crcStep crcInitial

/-- CRC_INIT (R101). -/
def execCrcInit (s : State) : Result := complete (setCrc crcInitial s)

/-- CRC_BYTE b (R102). -/
def execCrcByte (b : Byte) (s : State) : Result := complete (setCrc (crcStep s.crc b) s)

end Sys2Proof.Machine
end

