-- ==== Sys2Proof/Machine/Framer.lean ====
section
/-! DEFINITION. The Modbus-RTU framer: the frames of 30_encoding R85 and R86, ENC_READ, ENC_WRITE, ENC_BLK, and the payload
intake RX_CLEAR and RX_PUSH (41_framer). The encoders check none of their operand values (R121, 20_memory R70). -/

namespace Sys2Proof.Machine

/-- The 6 header bytes of a read request: every field high byte first (R85, 20_memory R66). -/
def readHeader (slave fc : Byte) (start count : Half) : List Byte :=
  [slave, fc, hiByte start, loByte start, hiByte count, loByte count]

/-- The 9 header bytes of a write request for one register: function code 16, register count 1, byte count 2 (R86). -/
def writeHeader (slave : Byte) (addr value : Half) : List Byte :=
  [slave, 0x10, hiByte addr, loByte addr, 0x00, 0x01, 0x02, hiByte value, loByte value]

/-- A header and its CRC, low byte first (R120, R66). -/
def frameOf (h : List Byte) : List Byte := h ++ [loByte (crc16 h), hiByte (crc16 h)]

/-- How every encoder ends: TX is the frame, CRC is the frame's CRC, ERR is 0 (R120). -/
def sendFrame (h : List Byte) (s : State) : Result :=
  complete (setCrc (crc16 h) (setTx (frameOf h) s))

/-- ENC_READ (R122). -/
def execEncRead (s : State) : Result :=
  sendFrame (readHeader s.reqSlave s.reqFc s.reqAddr s.reqCount) s

/-- ENC_WRITE (R123). -/
def execEncWrite (s : State) : Result :=
  sendFrame (writeHeader s.reqSlave s.reqAddr s.reqValue) s

/-- The read request for the block `d` (R124): the function code is the catalog's, REQ_FC is not read. -/
def frameBlock (d : Config.BlockDesc) (s : State) : Result :=
  sendFrame (readHeader s.reqSlave d.fc d.start d.count) s

/-- ENC_BLK p (R124): BAD_POS, else the frame of the catalog entry. -/
def execEncBlk (p : Nat) (s : State) : Result := withBlock p s (fun d => frameBlock d s)

/-- RX_CLEAR (R125). -/
def execRxClear (s : State) : Result := complete (setRx [] s)

/-- RX_PUSH b (R126): RX_FULL at capacity, and the byte is dropped. -/
def execRxPush (b : Byte) (s : State) : Result :=
  if s.rx.length = s.params.rxMax then raise .rxFull s
  else complete (setRx (s.rx ++ [b]) s)

end Sys2Proof.Machine
end

