-- ==== Sys2Proof/Machine/Dispatch.lean ====
section
/-! DEFINITION. One arm per command of the opcode table (30_encoding R82), each one call of its meaning. -/

namespace Sys2Proof.Machine

def exec (i : Instr) (s : State) : Host.Outcome State Fault Refusal :=
  match i with
  | .nop => Sys2Proof.Machine.execNop s
  | .crcInit => Sys2Proof.Machine.execCrcInit s
  | .crcByte b => Sys2Proof.Machine.execCrcByte b s
  | .encRead => Sys2Proof.Machine.execEncRead s
  | .encWrite => Sys2Proof.Machine.execEncWrite s
  | .encBlk p => Sys2Proof.Machine.execEncBlk p s
  | .rxClear => Sys2Proof.Machine.execRxClear s
  | .rxPush b => Sys2Proof.Machine.execRxPush b s
  | .decBlk p => Sys2Proof.Machine.execDecBlk p s
  | .fldS16 o => Sys2Proof.Machine.execFldS16 o s
  | .fldU16 o => Sys2Proof.Machine.execFldU16 o s
  | .fldBool o => Sys2Proof.Machine.execFldBool o s
  | .fldEnum t o => Sys2Proof.Machine.execFldEnum t o s
  | .outPop => Sys2Proof.Machine.execOutPop s
  | .outClear => Sys2Proof.Machine.execOutClear s
  | .clrErr => Sys2Proof.Machine.execClrErr s
  | .softReset => Sys2Proof.Machine.execSoftReset s

end Sys2Proof.Machine
end

