-- ==== Sys2Proof/Machine/Bus.lean ====
section
/-! DEFINITION. The register space the host sees (10_state R22 to R26, R32, R36 to R40, R44; 20_memory R60 to R65), and one host
access as one step. -/

namespace Sys2Proof.Machine

/-- The offset of a register (R22). -/
def Reg.offset : Reg → Nat
  | .cmd => 0x000
  | .status => 0x004
  | .cfg => 0x008
  | .catlen => 0x00C
  | .reqSlave => 0x010
  | .reqFc => 0x014
  | .reqAddr => 0x018
  | .reqCount => 0x01C
  | .reqValue => 0x020
  | .crc => 0x024
  | .txlen => 0x028
  | .rxlen => 0x02C
  | .outcnt => 0x030
  | .outHead0 => 0x034
  | .outHead1 => 0x038
  | .txb i => 0x040 + 4 * i
  | .rxb i => 0x400 + 4 * i

/-- The registers below the two byte windows, in the order of R22's table. -/
def plainRegs : List Reg :=
  [.cmd, .status, .cfg, .catlen, .reqSlave, .reqFc, .reqAddr, .reqCount, .reqValue, .crc, .txlen, .rxlen,
   .outcnt, .outHead0, .outHead1]

/-- The register at an offset, none where the offset is unmapped (R22, R63). -/
def regAt (rxMax off : Nat) : Option Reg :=
  match plainRegs.find? (fun r => r.offset == off) with
  | some r => some r
  | none =>
    if off % 4 ≠ 0 then none
    else if 0x040 ≤ off ∧ off < 0x040 + 4 * 11 then some (.txb ((off - 0x040) / 4))
    else if 0x400 ≤ off ∧ off < 0x400 + 4 * rxMax then some (.rxb ((off - 0x400) / 4))
    else none

/-- CFG as it reads: ENABLE in [13:0], LOCK in [31], every other bit 0 (R24). -/
def cfgWord (s : State) : Word :=
  s.enable.setWidth 32 ||| (if s.lock then 0x80000000 else 0)

/-- OUT_HEAD0 as it reads: `NAME << 16 | KIND` of the front record, 0 when there is none (R40). -/
def outHead0Word (s : State) : Word :=
  match s.out with
  | [] => 0
  | r :: _ => (r.name.setWidth 32 <<< 16) ||| r.kind.setWidth 32

/-- OUT_HEAD1 as it reads: VALUE of the front record, 0 when there is none (R40). -/
def outHead1Word (s : State) : Word :=
  match s.out with
  | [] => 0
  | r :: _ => r.value

/-- What a register reads as (R22). A length reads in the bits R22 gives its register (log 18). -/
def readReg (s : State) : Reg → Word
  | .cmd => 0
  | .status => statusWord s
  | .cfg => cfgWord s
  | .catlen => (BitVec.ofNat 5 (catlen s)).setWidth 32
  | .reqSlave => s.reqSlave.setWidth 32
  | .reqFc => s.reqFc.setWidth 32
  | .reqAddr => s.reqAddr.setWidth 32
  | .reqCount => s.reqCount.setWidth 32
  | .reqValue => s.reqValue.setWidth 32
  | .crc => s.crc.setWidth 32
  | .txlen => (BitVec.ofNat 4 s.tx.length).setWidth 32
  | .rxlen => (BitVec.ofNat 16 s.rx.length).setWidth 32
  | .outcnt => (BitVec.ofNat 16 s.out.length).setWidth 32
  | .outHead0 => outHead0Word s
  | .outHead1 => outHead1Word s
  | .txb i => (s.tx.getD i 0).setWidth 32
  | .rxb i => (s.rx.getD i 0).setWidth 32

/-- The value `MemRead(off, 4)` returns (R22, R63). -/
def readValue (s : State) (off : Nat) : Word :=
  match regAt s.params.rxMax off with
  | some r => readReg s r
  | none => 0

/-- A write to CFG: taken while LOCK is 0, ignored completely once it is 1 (R24). -/
def writeCfg (v : Word) (s : State) : State :=
  if s.lock then s
  else { s with enable := v.extractLsb' 0 14, lock := v.getLsbD 31 }

/-- A write to a register other than CMD: CFG and REQ_* take the bits that fit (R24, R26), every other register ignores it (R44). -/
def writeReg (v : Word) (s : State) : Reg → State
  | .cfg => writeCfg v s
  | .reqSlave => { s with reqSlave := v.extractLsb' 0 8 }
  | .reqFc => { s with reqFc := v.extractLsb' 0 8 }
  | .reqAddr => { s with reqAddr := v.extractLsb' 0 16 }
  | .reqCount => { s with reqCount := v.extractLsb' 0 16 }
  | .reqValue => { s with reqValue := v.extractLsb' 0 16 }
  | .cmd | .status | .catlen | .crc | .txlen | .rxlen | .outcnt => s
  | .outHead0 | .outHead1 | .txb _ | .rxb _ => s

/-- A write to CMD: one command, whole (R22, R65); an illegal opcode raises ILLEGAL_OP (30_encoding R84). -/
def command (w : Word) (s : State) : Result :=
  match decode w with
  | .ok i => exec i s
  | .error (.illegalOp _) => raise .illegalOp s

/-- `MemWrite(off, 4, v)` (R22, R63). -/
def performWrite (off : Nat) (v : Word) (s : State) : Result :=
  match regAt s.params.rxMax off with
  | some .cmd => command v s
  | some r => .next (writeReg v s r)
  | none => .next s

/-- The accesses R61 admits: 4 bytes wide at a multiple of 4. -/
def accessAdmitted (off bytes : Nat) : Bool := bytes == 4 && off % 4 == 0

/-- The value a read returns goes to the host; nothing else changes (R64, log 2). -/
def answer (v : Word) (s : State) : State := { s with answers := s.answers ++ [v] }

/-- One event from outside (R61, R65, R240). -/
def perform (a : BusAccess) (s : State) : Result :=
  match a with
  | .hardReset => .next (hardResetState s)
  | .read off bytes =>
    if accessAdmitted off bytes then .next (answer (readValue s off) s) else .refused .badAccess
  | .write off bytes v =>
    if accessAdmitted off bytes then performWrite off v s else .refused .badAccess

/-- The block with the oldest pending access taken off the list. -/
def popBus (s : State) : State := { s with bus := s.bus.tail }

/-- One step: parameters given ill formed are refused (R29, log 7); else the oldest pending access is performed; with none pending
nothing happens, since the block never steps on its own (R14, log 1). -/
def serveBus (s : State) : Result :=
  if paramsAdmitted s.params then
    match s.bus with
    | [] => .next s
    | a :: _ => perform a (popBus s)
  else .refused .illFormedConfig

/-- The pending accesses with a CMD write of the word put first. -/
def commandFirst (w : Word) (s : State) : State :=
  { s with bus := .write 0x000 4 w :: s.bus }

end Sys2Proof.Machine
end

