-- ==== Sys2Proof/Machine/Step.lean ====
section
/-! DEFINITION. The step of the block (20_memory R65, 00_scope R14). -/

namespace Sys2Proof.Machine

/-- One step: the oldest pending host access, performed whole. -/
def step (s : State) : Host.Outcome State Fault Refusal := serveBus s

/-- `s` with the command word whose low `nbits` bits are those of `w`, every bit above them 0, as the next host access: a write of
it to CMD, which is where a command comes from (10_state R21, R22, log 1). -/
def State.withFetchWord (s : State) (nbits w : Nat) : State :=
  commandFirst (BitVec.ofNat 32 (w % 2 ^ nbits)) s

end Sys2Proof.Machine
end

