-- ==== Sys2Proof/Machine/Asm.lean ====
section
/-! DEFINITION. The host's access sequences: the assembler lines and pseudo-instructions of 30_encoding R90 and R91, the boot
order of 70_reset R242, and the block-level form of one read and one write (60_exceptions R224, R226). They are lists of accesses
a host may issue; the block enforces none of them (log 13). -/

namespace Sys2Proof.Machine.Asm

/-- `WR <reg>, <value>` (R90). -/
def wr (r : Reg) (v : Word) : BusAccess := .write r.offset 4 v

/-- `RD <reg>` (R90). -/
def rd (r : Reg) : BusAccess := .read r.offset 4

/-- A command line: the write of its word to CMD (R90). -/
def cmd (i : Instr) : BusAccess := wr .cmd (encode i)

/-- `CRC_BYTES` (R91). -/
def crcBytes (bs : List Byte) : List BusAccess := bs.map (fun b => cmd (.crcByte b))

/-- `CRC16` (R91). -/
def crc16Of (bs : List Byte) : List BusAccess := cmd .crcInit :: crcBytes bs

/-- `RX_LOAD` (R91). -/
def rxLoad (bs : List Byte) : List BusAccess := cmd .rxClear :: bs.map (fun b => cmd (.rxPush b))

/-- `READ_TX` for a frame of `n` bytes, TXLEN being what its first read returns (R91). -/
def readTx (n : Nat) : List BusAccess := rd .txlen :: (List.range n).map (fun i => rd (.txb i))

/-- `POP_REC` (R91). -/
def popRec : List BusAccess := [rd .outHead0, rd .outHead1, cmd .outPop]

/-- Boot after reset: CFG with the selected blocks and LOCK, then the slave address (R242). -/
def boot (enable : BitVec 14) (slave : Byte) : List BusAccess :=
  [wr .cfg (enable.setWidth 32 ||| 0x80000000), wr .reqSlave (slave.setWidth 32)]

/-- One read at position `p` answered by `payload`, up to its decode (R224). -/
def readBlock (p : Nat) (payload : List Byte) : List BusAccess :=
  cmd (.encBlk p) :: (readTx 8 ++ rxLoad payload ++ [cmd (.decBlk p)])

/-- One register write (R226). -/
def writeRegister (slave : Byte) (addr value : Half) : List BusAccess :=
  [wr .reqSlave (slave.setWidth 32), wr .reqAddr (addr.setWidth 32), wr .reqValue (value.setWidth 32), cmd .encWrite] ++
    readTx 11

end Sys2Proof.Machine.Asm
end

