-- ==== Sys2Proof/Machine/Readings.lean ====
section
/-! DEFINITION. What an output record stands for: the typed reading a host forwards for it (10_state R39, 42_decode R151, R154,
R156, 43_control R193). No command computes these; the block's own output is the record. -/

namespace Sys2Proof.Machine

open Sys2Proof.Config

/-- The value of a reading: "signed scaled float, unsigned integer, boolean, enumerated string" (00_scope R12), the scaled
one as the exact rational (R151, D21, log 14). -/
inductive Reading where
  | scaled (v : Rat)
  | uint (v : Nat)
  | bool (v : Bool)
  | text (v : String)
  deriving DecidableEq, Repr

/-- `value(rec)` of a SCALED record: `s16(VALUE[15:0]) / 100`, exact (R151, R193). -/
def scaledValue (r : Record) : Rat := (s16 (r.value.extractLsb' 0 16) : Rat) / 100

/-- `label(rec)` of an ENUM record (R154, 10_state R34, R39). The table number is the 8 bits R39 gives it, so the view of a record of
a table `t` above 255 reads table `t mod 256`, and a code past the table it reads is "Unknown": DESIGN CHOICE (log 20). -/
def enumLabel (rom : Rom) (r : Record) : String :=
  if r.value.getLsbD 31 then "Unknown"
  else (enumTable rom (r.value.extractLsb' 16 8).toNat).getD (r.value.extractLsb' 0 16).toNat "Unknown"

/-- The reading of one record (R193). Records of kinds 5 and 6 together stand for one string: `identOf`. -/
def readingOf (rom : Rom) (r : Record) : Option Reading :=
  if r.kind = 1 then some (.scaled (scaledValue r))
  else if r.kind = 2 then some (.uint r.value.toNat)
  else if r.kind = 3 then some (.bool (r.value != 0))
  else if r.kind = 4 then some (.text (enumLabel rom r))
  else none

/-- The 4 bytes of a chunk record, in order (R39, R156). -/
def chunkBytes (v : Word) : List Byte :=
  [v.extractLsb' 0 8, v.extractLsb' 8 8, v.extractLsb' 16 8, v.extractLsb' 24 8]

/-- The identity string rebuilt from its records: "joining the chunk bytes in order and cutting the result to L bytes" (R156).
`L` is the 16 bits R39 gives it, so the view of a string of 65536 bytes or more is cut to `L mod 65536` bytes, and a list with no end
record gives no bytes: DESIGN CHOICE (log 20). -/
def identOf (recs : List Record) : List Byte :=
  let chunks := (recs.filter (fun r => r.kind == 5)).flatMap (fun r => chunkBytes r.value)
  let len := ((recs.find? (fun r => r.kind == 6)).map (fun r => (r.value.extractLsb' 0 16).toNat)).getD 0
  chunks.take len

end Sys2Proof.Machine
end

