-- ==== Sys2Proof/Safety.lean ====
section
/-! DEFINITION. What counts as a good state of the block and a good run, in the terms the statements use. -/

namespace Sys2Proof.Safety

open Sys2Proof.Machine

/-- ERR holds a code R210 defines: 9 to 15 are reserved and never raised (U11). -/
abbrev ErrLegal (s : State) : Prop := s.err.toNat ≤ 8

/-- An error in ERR has also been noted in STICKY (10_state R23). -/
abbrev StickyNotesErr (s : State) : Prop := s.err ≠ 0 → s.sticky = true

/-- TX is empty or a whole frame of 8 or 11 bytes whose CRC over all its bytes is 0 (10_state R36, 40_crc R104(a)). -/
abbrev FrameChecked (s : State) : Prop :=
  s.tx = [] ∨ ((s.tx.length = 8 ∨ s.tx.length = 11) ∧ crc16 s.tx = 0)

/-- RXLEN is at most P_RXMAX and OUTCNT at most P_OUTDEPTH (10_state R37, R38). -/
abbrev BuffersBounded (s : State) : Prop :=
  s.rx.length ≤ s.params.rxMax ∧ s.out.length ≤ s.params.outDepth

/-- The record's kind is one the block produces: 1 to 6 (10_state R39, U12). -/
abbrev kindLegal (r : Record) : Prop := 1 ≤ r.kind.toNat ∧ r.kind.toNat ≤ 6

/-- Every record of OUT has a kind the block produces. -/
abbrev RecordsLegal (s : State) : Prop := ∀ r ∈ s.out, kindLegal r

/-- The invariant of the block: what the spec says of its flags, its frame, its buffers and its records at all times. -/
structure BlockInv (s : State) : Prop where
  errLegal : ErrLegal s
  stickyNotesErr : StickyNotesErr s
  frameChecked : FrameChecked s
  buffersBounded : BuffersBounded s
  recordsLegal : RecordsLegal s

/-- The identity string of the payload keeps within P_IDENT_MAXLEN (10_state R35). -/
abbrev IdentFits (s : State) : Prop := identBroken (activeRom s.params) s.rx = false

/-- What the access needs of ROM contents beyond their being admitted: a CMD write of ENC_BLK or DEC_BLK at a position that has a block
needs a well-formed catalog (10_state R29), and where that decode reaches an IDENT field, an identity string within its bound (42_decode
R156). Every other access needs nothing. -/
def AccessHasMeaning (s : State) (a : BusAccess) : Prop :=
  ∀ (w : Word) (p : Nat) (b : Fin Config.nBlk), a = .write 0x000 4 w → enabledAt s p = some b →
    (decode w = .ok (.encBlk p) ∨ decode w = .ok (.decBlk p) → romOk s.params (activeRom s.params) = true) ∧
    (decode w = .ok (.decBlk p) → s.rx.length = (catEntry s b).explen →
      (∃ f ∈ (catEntry s b).fields, f.kind = .ident) → IdentFits s)

/-- Two states that agree on everything a payload decode reads or writes beside CRC, TX and the request registers. -/
structure SameDecodeView (s t : State) : Prop where
  enable : s.enable = t.enable
  rx : s.rx = t.rx
  out : s.out = t.out
  params : s.params = t.params

/-- How many bits of ENABLE below bit `n` are set: the position of block `n` where it is enabled (10_state R31). -/
def setBitsBelow (en : BitVec 14) (n : Nat) : Nat := ((List.range n).filter (fun b => en.getLsbD b)).length

/-- `exec` run over a list of commands, stopping where one does not answer a next state. -/
def runCommands : List Instr → State → Result
  | [], s => .next s
  | i :: is, s =>
    match exec i s with
    | .next t => runCommands is t
    | .fault f => .fault f
    | .refused r => .refused r

end Sys2Proof.Safety
end

