-- ==== Sys2Proof/Certificates/Slice0/Obligations.lean ====
section
/-! DEFINITION. The statements for the provers: what spec/ says of the commands, the flags, the register space, the parameters,
reset and the steps. Each docstring names the rule it formalises. -/

open Sys2Proof Sys2Proof.Machine Sys2Proof.Safety Sys2Proof.Config

/-! ## Encoding -/

/-- R80, R81, R82: decoding the word of a well-formed command gives the command back, every argument at every value. -/
def Obligations.DecodeInvertsEncode : Prop :=
  ∀ i : Instr, i.wf = true → decode (encode i) = .ok i

/-- R82, R84: a word decodes exactly when its OP is listed, to a command with that opcode whose arguments fit; else it is refused
by its opcode's name. -/
def Obligations.DecodeSelectsByOpcodeAlone : Prop :=
  (∀ w : Word, (opField w).toNat ∈ legalOpcodes → ∃ i, decode w = .ok i ∧ i.opcode = opField w ∧ i.wf = true) ∧
  (∀ w : Word, (opField w).toNat ∉ legalOpcodes → decode w = .error (.illegalOp (opField w)))

/-- R83: the fields R82 marks ignored have no effect: A matters to the opcodes 0x02, 0x12, 0x21, 0x30, 0x34 alone, B to 0x31 to
0x34 alone. -/
def Obligations.IgnoredFieldsHaveNoEffect : Prop :=
  ∀ (w w' : Word) (s : State), opField w = opField w' →
    ((opField w).toNat ∈ [0x02, 0x12, 0x21, 0x30, 0x34] → aField w = aField w') →
    ((opField w).toNat ∈ [0x31, 0x32, 0x33, 0x34] → bField w = bField w') →
    command w s = command w' s

/-- R82, R101, R102, R161, R164: a few words written out from the encoding decode to the commands they stand for. -/
def Obligations.SampleWordsDecode : Prop :=
  decode 0x00000000 = .ok .nop ∧ decode 0x00003102 = .ok (.crcByte 0x31) ∧ decode 0x00000112 = .ok (.encBlk 1) ∧
  decode 0x00020031 = .ok (.fldS16 2) ∧ decode 0x00000334 = .ok (.fldEnum 3 0) ∧ decode 0x0000005A = .ok .softReset ∧
  decode 0x000000FF = .error (.illegalOp 0xFF)

/-! ## The CRC generator -/

/-- R100: `crc_step` is the XOR into the low byte and 8 shifts, each with the XOR of 0xA001 if the low bit was set. -/
def Obligations.CrcStepIsEightConditionalShifts : Prop :=
  ∀ (c : Half) (b : Byte),
    crcStep c b = (fun x : Half => if x.getLsbD 0 then (x >>> 1) ^^^ 0xA001 else x >>> 1)^[8] (c ^^^ b.setWidth 16)

/-- R103: `crc16` folds `crc_step` from 0xFFFF, first byte first; its check value is 0x4B37. -/
def Obligations.CrcOfBytesIsTheFold : Prop :=
  crc16 [] = 0xFFFF ∧ (∀ (bs : List Byte) (b : Byte), crc16 (bs ++ [b]) = crcStep (crc16 bs) b) ∧
  crc16 [0x31, 0x32, 0x33, 0x34, 0x35, 0x36, 0x37, 0x38, 0x39] = 0x4B37

/-- R104(a), (c): the CRC over any bytes followed by their own CRC, low byte first, is 0; so is that of FF FF. -/
def Obligations.CrcOverFrameWithItsCrcIsZero : Prop :=
  (∀ bs : List Byte, crc16 (bs ++ [(crc16 bs).extractLsb' 0 8, (crc16 bs).extractLsb' 8 8]) = 0) ∧
  crc16 [0xFF, 0xFF] = 0

/-- R104(b): for each byte, `crc_step` is a bijection on the running CRC. -/
def Obligations.CrcStepIsBijectiveForEachByte : Prop :=
  ∀ b : Byte, Function.Bijective (fun c : Half => crcStep c b)

/-- R101: OP 0x01 is CRC_INIT; it sets CRC to 0xFFFF and ERR to 0 and changes nothing else, in every state. -/
def Obligations.CrcInitSetsInitialValue : Prop :=
  (∀ w : Word, opField w = 0x01 → decode w = .ok .crcInit) ∧
  (∀ s : State, exec .crcInit s = .next { s with crc := 0xFFFF, err := 0 })

/-- R102: OP 0x02 is CRC_BYTE with the byte in A; it folds the byte into CRC, sets ERR to 0 and changes nothing else. -/
def Obligations.CrcByteFoldsOneByte : Prop :=
  (∀ w : Word, opField w = 0x02 → decode w = .ok (.crcByte (aField w))) ∧
  (∀ (b : Byte) (s : State), exec (.crcByte b) s = .next { s with crc := crcStep s.crc b, err := 0 })

/-- R91, R103: CRC_INIT and one CRC_BYTE per byte leave the CRC of the bytes, and change only CRC and ERR. -/
def Obligations.CrcCommandsComputeCrcOfAnyBytes : Prop :=
  ∀ (bs : List Byte) (s : State),
    runCommands (.crcInit :: bs.map .crcByte) s = .next { s with crc := crc16 bs, err := 0 }

/-! ## The framer -/

/-- R122 with R120: OP 0x10 is ENC_READ; TX becomes the 8-byte frame of the request registers, CRC its CRC, ERR 0, and nothing
else changes, whatever the registers hold. -/
def Obligations.EncReadBuildsReadFrame : Prop :=
  (∀ w : Word, opField w = 0x10 → decode w = .ok .encRead) ∧
  (∀ s : State,
    let h : List Byte := [s.reqSlave, s.reqFc, s.reqAddr.extractLsb' 8 8, s.reqAddr.extractLsb' 0 8,
      s.reqCount.extractLsb' 8 8, s.reqCount.extractLsb' 0 8]
    exec .encRead s =
      .next { s with tx := h ++ [(crc16 h).extractLsb' 0 8, (crc16 h).extractLsb' 8 8], crc := crc16 h, err := 0 })

/-- R123 with R120: OP 0x11 is ENC_WRITE; TX becomes the 11-byte frame with function code 16, count 1 and byte count 2, and the
frame of the state is as R120 says. -/
def Obligations.EncWriteBuildsWriteFrame : Prop :=
  (∀ w : Word, opField w = 0x11 → decode w = .ok .encWrite) ∧
  (∀ s : State,
    let h : List Byte := [s.reqSlave, 0x10, s.reqAddr.extractLsb' 8 8, s.reqAddr.extractLsb' 0 8, 0x00, 0x01, 0x02,
      s.reqValue.extractLsb' 8 8, s.reqValue.extractLsb' 0 8]
    exec .encWrite s =
      .next { s with tx := h ++ [(crc16 h).extractLsb' 0 8, (crc16 h).extractLsb' 8 8], crc := crc16 h, err := 0 })

/-- R124 with R120: OP 0x12 is ENC_BLK with the position in A; at or above CATLEN it raises BAD_POS and changes only the flags;
below CATLEN, under a well-formed catalog, TX becomes the read frame of the catalog entry at that position. -/
def Obligations.EncBlkBuildsFrameOfCatalogEntry : Prop :=
  (∀ w : Word, opField w = 0x12 → decode w = .ok (.encBlk (aField w).toNat)) ∧
  (∀ (p : Nat) (s : State), catlen s ≤ p → exec (.encBlk p) s = .next { s with err := 2, sticky := true }) ∧
  (∀ (p : Nat) (b : Fin nBlk) (s : State), enabledAt s p = some b → romOk s.params (activeRom s.params) = true →
    let d := catEntry s b
    let h : List Byte := [s.reqSlave, d.fc, d.start.extractLsb' 8 8, d.start.extractLsb' 0 8,
      d.count.extractLsb' 8 8, d.count.extractLsb' 0 8]
    exec (.encBlk p) s =
      .next { s with tx := h ++ [(crc16 h).extractLsb' 0 8, (crc16 h).extractLsb' 8 8], crc := crc16 h, err := 0 })

/-- R125: OP 0x20 is RX_CLEAR; RX becomes empty, ERR 0, and nothing else changes. -/
def Obligations.RxClearEmptiesPayload : Prop :=
  (∀ w : Word, opField w = 0x20 → decode w = .ok .rxClear) ∧
  (∀ s : State, exec .rxClear s = .next { s with rx := [], err := 0 })

/-- R126: OP 0x21 is RX_PUSH with the byte in A; it appends the byte, or at capacity raises RX_FULL and drops it. -/
def Obligations.RxPushAppendsOrRaises : Prop :=
  (∀ w : Word, opField w = 0x21 → decode w = .ok (.rxPush (aField w))) ∧
  (∀ (b : Byte) (s : State), s.rx.length ≠ s.params.rxMax →
    exec (.rxPush b) s = .next { s with rx := s.rx ++ [b], err := 0 }) ∧
  (∀ (b : Byte) (s : State), s.rx.length = s.params.rxMax →
    exec (.rxPush b) s = .next { s with err := 5, sticky := true })

/-- R91, R126: RX_CLEAR and one RX_PUSH per byte load any payload that P_RXMAX can hold, and change only RX and ERR. -/
def Obligations.RxLoadCommandsLoadThePayload : Prop :=
  ∀ (bs : List Byte) (s : State), bs.length ≤ s.params.rxMax →
    runCommands (.rxClear :: bs.map .rxPush) s = .next { s with rx := bs, err := 0 }

/-! ## The parameters and the catalog -/

/-- R29, R30: what "well formed" means of the catalog of the ROM contents. -/
def Obligations.CatalogWellFormedAsListed : Prop :=
  ∀ (p : Params) (r : Rom), romOk p r = true ↔
    ∀ b ∈ r.catalog.toList,
      (b.fc = 3 ∨ b.fc = 4) ∧ b.explen ≤ p.rxMax ∧
      (∀ f ∈ b.fields, f.kind ≠ .ident → f.off + 2 ≤ b.explen) ∧
      (∀ f ∈ b.fields, ∀ t, f.kind = .enum t → t < 3 + r.extraTables.length) ∧
      (b.fields.filter (fun f => f.kind == .ident)).length ≤ 1 ∧
      (∀ f ∈ b.fields, f.kind = .ident → r.identVerOff + 2 ≤ b.explen) ∧
      (∀ f ∈ b.fields, f.name ≠ 0xFFFF) ∧
      (b.fields.map (fun f => if f.kind = .ident then (r.identMaxLen + 3) / 4 + 1 else 1)).sum ≤ p.outDepth

/-- R9, R29, U4: parameters given ill formed have no meaning: every step is refused, be it for a capacity outside the range R9 gives it
or for ROM contents that fail R29; and ENC_BLK and DEC_BLK refuse ROM contents that are not well formed where they would read them,
filled in or free. That the refusal falls just there, and on the ranges too, is the model's choice (log 7). -/
def Obligations.IllFormedParametersAreRefused : Prop :=
  (∀ s : State, (s.params.rxMax < 2 ∨ 65535 < s.params.rxMax ∨ s.params.outDepth < 1 ∨ 65535 < s.params.outDepth) →
    step s = .refused .illFormedConfig) ∧
  (∀ (s : State) (r : Rom), s.params.rom = some r → romOk s.params r = false → step s = .refused .illFormedConfig) ∧
  (∀ (s : State) (p : Nat), p < catlen s → romOk s.params (activeRom s.params) = false →
    exec (.encBlk p) s = .refused .illFormedConfig ∧ exec (.decBlk p) s = .refused .illFormedConfig)

/-- R31, R25: `enabled(p)` is the block whose ENABLE bit is set with exactly `p` set bits below it, and it is defined exactly below
CATLEN, the number of set bits. -/
def Obligations.EnabledIsTheNthSetBit : Prop :=
  (∀ (s : State) (p : Nat) (b : Fin nBlk),
    enabledAt s p = some b ↔ (s.enable.getLsbD b.val = true ∧ setBitsBelow s.enable b.val = p)) ∧
  (∀ (s : State) (p : Nat), (∃ b, enabledAt s p = some b) ↔ p < catlen s) ∧
  (∀ s : State, catlen s = setBitsBelow s.enable 14)

/-- R33: the three named tables have 5, 14 and 7 labels, with the labels the spec gives. -/
def Obligations.NamedTablesHaveTheirLabels : Prop :=
  ∀ r : Rom, enumTable r 0 = ["Off", "Heat", "Cool", "Auto", "Service"] ∧
    (enumTable r 1).length = 14 ∧ (enumTable r 1)[0]? = some "Off" ∧ (enumTable r 1)[13]? = some "Defrost" ∧
    (enumTable r 2).length = 7 ∧ (enumTable r 2)[0]? = some "None" ∧ (enumTable r 2)[6]? = some "Cooker Hood"

/-- R27, R243: no step changes a parameter. -/
def Obligations.NoStepChangesTheParameters : Prop :=
  ∀ s t : State, step s = .next t → t.params = s.params

/-! ## The field unpacker -/

/-- R150, R152, R153: the field fetch is big-endian, UINT extends it with zeros, BOOL asks whether any of the 16 bits is set. -/
def Obligations.FieldFetchAndPlainConversions : Prop :=
  (∀ (rx : List Byte) (o : Nat) (h l : Byte), rx[o]? = some h → rx[o + 1]? = some l → raw rx o = h ++ l) ∧
  (∀ n r : Half, convUint n r = { kind := 2, name := n, value := r.setWidth 32 }) ∧
  (∀ n r : Half, convBool n r = { kind := 3, name := n, value := if r = 0 then 0 else 1 })

/-- R151: the SCALED record stands for the exact rational `s16(raw) / 100`, and its VALUE is the sign-extended field. -/
def Obligations.ScaledRecordStandsForHundredths : Prop :=
  ∀ n r : Half, convScaled n r = { kind := 1, name := n, value := r.signExtend 32 } ∧
    scaledValue (convScaled n r) = (r.toInt : Rat) / 100

/-- R154, R34: the ENUM record of a table number that fits its field carries the code, the table and UNKNOWN, and its label is the
table's, or "Unknown" for a code that is not below the table's length. -/
def Obligations.EnumRecordCarriesCodeAndLabel : Prop :=
  ∀ (rom : Rom) (n : Half) (t : Nat) (r : Half), t < 256 →
    let rec' := convEnum rom n t r
    rec'.kind = 4 ∧ rec'.name = n ∧
    rec'.value.extractLsb' 0 16 = r ∧ (rec'.value.extractLsb' 16 8).toNat = t ∧ rec'.value.extractLsb' 24 7 = 0 ∧
    (rec'.value.getLsbD 31 = true ↔ (enumTable rom t).length ≤ r.toNat) ∧
    ((enumTable rom t).length ≤ r.toNat → enumLabel rom rec' = "Unknown") ∧
    (∀ l, (enumTable rom t)[r.toNat]? = some l → enumLabel rom rec' = l)

/-- R155: the scheme is the version-8 one exactly when the version field is 8; a scheme that is filled in gives the payload bytes at
its offsets, one that is not gives the free string, kept to P_IDENT_MAXLEN (log 5). -/
def Obligations.IdentSchemeFollowsVersionField : Prop :=
  ∀ (rom : Rom) (rx : List Byte),
    (identIsV8 rom rx = true ↔ raw rx rom.identVerOff = 8) ∧
    (raw rx rom.identVerOff = 8 → ∀ offs, rom.identV8 = .reorder offs →
      identString rom rx = offs.filterMap (fun o => rx[o]?)) ∧
    (raw rx rom.identVerOff ≠ 8 → ∀ offs, rom.identOther = .reorder offs →
      identString rom rx = offs.filterMap (fun o => rx[o]?)) ∧
    (raw rx rom.identVerOff = 8 → rom.identV8 = .unknown →
      identString rom rx = (Config.identV8 rx).take rom.identMaxLen) ∧
    (raw rx rom.identVerOff ≠ 8 → rom.identOther = .unknown →
      identString rom rx = (Config.identOther rx).take rom.identMaxLen)

/-- R156, R39: the records of an identity string are ceil(L/4) chunks and one end record with L and the scheme, all of one name; chunk k
carries the bytes 4k to 4k+3, lowest first, a missing byte 0; and a host that joins the chunks and cuts them to L has the string
back. -/
def Obligations.IdentRecordsRebuildTheString : Prop :=
  ∀ (name : Half) (v8 : Bool) (str : List Byte), str.length < 65536 →
    (identRecs name v8 str).length = (str.length + 3) / 4 + 1 ∧
    (∀ r ∈ identRecs name v8 str, r.name = name) ∧
    (∀ k, k < (str.length + 3) / 4 → (identRecs name v8 str)[k]? =
      some { kind := 5, name := name,
             value := (str.getD (4 * k) 0).setWidth 32 ||| ((str.getD (4 * k + 1) 0).setWidth 32 <<< 8) |||
               ((str.getD (4 * k + 2) 0).setWidth 32 <<< 16) ||| ((str.getD (4 * k + 3) 0).setWidth 32 <<< 24) }) ∧
    (∃ chunks, identRecs name v8 str =
        chunks ++ [{ kind := 6, name := name, value := BitVec.ofNat 32 ((if v8 then 65536 else 0) + str.length) }] ∧
      ∀ r ∈ chunks, r.kind = 5) ∧
    identOf (identRecs name v8 str) = str

/-- R157: the records of a block are those of its fields in list order, each field converted by its kind. -/
def Obligations.BlockRecordsFollowFieldOrder : Prop :=
  (∀ (rom : Rom) (rx : List Byte) (d : BlockDesc),
    blockRecs rom rx d = (d.fields.map (fieldRecs rom rx)).flatten) ∧
  (∀ (rom : Rom) (rx : List Byte) (f : FieldDesc),
    (f.kind = .scaled → fieldRecs rom rx f = [convScaled f.name (raw rx f.off)]) ∧
    (f.kind = .uint → fieldRecs rom rx f = [convUint f.name (raw rx f.off)]) ∧
    (f.kind = .bool → fieldRecs rom rx f = [convBool f.name (raw rx f.off)]) ∧
    (∀ t, f.kind = .enum t → fieldRecs rom rx f = [convEnum rom f.name t (raw rx f.off)]) ∧
    (f.kind = .ident → fieldRecs rom rx f = identRecs f.name (identIsV8 rom rx) (identString rom rx)))

/-- R160 with R156, R158, R159, R214: OP 0x30 is DEC_BLK with the position in A. BAD_POS at or above CATLEN; then LEN_MISMATCH; then, for
a block with an IDENT field whose string is longer than P_IDENT_MAXLEN, the refusal of R156; then OUT_FULL; else every record of the
block is appended to OUT, ERR is 0, and nothing else changes. That the refusal falls between LEN_MISMATCH and OUT_FULL is the model's
choice (log 8). -/
def Obligations.DecBlkEmitsAllRecordsOrRaises : Prop :=
  (∀ w : Word, opField w = 0x30 → decode w = .ok (.decBlk (aField w).toNat)) ∧
  (∀ (p : Nat) (s : State), catlen s ≤ p → exec (.decBlk p) s = .next { s with err := 2, sticky := true }) ∧
  (∀ (p : Nat) (b : Fin nBlk) (s : State), enabledAt s p = some b → romOk s.params (activeRom s.params) = true →
    let d := catEntry s b
    let recs := blockRecs (activeRom s.params) s.rx d
    (s.rx.length ≠ d.explen → exec (.decBlk p) s = .next { s with err := 3, sticky := true }) ∧
    (s.rx.length = d.explen → (∃ f ∈ d.fields, f.kind = .ident) → ¬ IdentFits s →
      exec (.decBlk p) s = .refused .identTooLong) ∧
    (s.rx.length = d.explen → ((∃ f ∈ d.fields, f.kind = .ident) → IdentFits s) →
      s.params.outDepth < s.out.length + recs.length →
      exec (.decBlk p) s = .next { s with err := 6, sticky := true }) ∧
    (s.rx.length = d.explen → ((∃ f ∈ d.fields, f.kind = .ident) → IdentFits s) →
      s.out.length + recs.length ≤ s.params.outDepth →
      exec (.decBlk p) s = .next { s with out := s.out ++ recs, err := 0 }))

/-- R30, R248: under a well-formed catalog a DEC_BLK whose payload has the expected length and whose OUT is empty never raises
OUT_FULL: it emits the block's records, at most nrec(b) of them. -/
def Obligations.DecodeIntoEmptyFifoNeverOverflows : Prop :=
  ∀ (p : Nat) (b : Fin nBlk) (s : State), enabledAt s p = some b → romOk s.params (activeRom s.params) = true →
    s.rx.length = (catEntry s b).explen → s.out = [] →
    ((∃ f ∈ (catEntry s b).fields, f.kind = .ident) → IdentFits s) →
    (blockRecs (activeRom s.params) s.rx (catEntry s b)).length ≤ nrec (activeRom s.params) (catEntry s b) ∧
    exec (.decBlk p) s =
      .next { s with out := blockRecs (activeRom s.params) s.rx (catEntry s b), err := 0 }

/-- R161: OP 0x31 is FLD_S16 with the offset in B: OFFSET_RANGE, then OUT_FULL, else one SCALED record named 0xFFFF. -/
def Obligations.FldS16EmitsSignedField : Prop :=
  (∀ w : Word, opField w = 0x31 → decode w = .ok (.fldS16 (bField w).toNat)) ∧
  (∀ (o : Nat) (s : State), s.rx.length < o + 2 → exec (.fldS16 o) s = .next { s with err := 4, sticky := true }) ∧
  (∀ (o : Nat) (s : State), o + 2 ≤ s.rx.length → s.params.outDepth < s.out.length + 1 →
    exec (.fldS16 o) s = .next { s with err := 6, sticky := true }) ∧
  (∀ (o : Nat) (s : State) (h l : Byte), s.rx[o]? = some h → s.rx[o + 1]? = some l →
    s.out.length + 1 ≤ s.params.outDepth →
    exec (.fldS16 o) s = .next { s with
      out := s.out ++ [{ kind := 1, name := 0xFFFF, value := (h ++ l : BitVec 16).signExtend 32 }], err := 0 })

/-- R162: OP 0x32 is FLD_U16 with the offset in B: OFFSET_RANGE, then OUT_FULL, else one UINT record named 0xFFFF. -/
def Obligations.FldU16EmitsUnsignedField : Prop :=
  (∀ w : Word, opField w = 0x32 → decode w = .ok (.fldU16 (bField w).toNat)) ∧
  (∀ (o : Nat) (s : State), s.rx.length < o + 2 → exec (.fldU16 o) s = .next { s with err := 4, sticky := true }) ∧
  (∀ (o : Nat) (s : State), o + 2 ≤ s.rx.length → s.params.outDepth < s.out.length + 1 →
    exec (.fldU16 o) s = .next { s with err := 6, sticky := true }) ∧
  (∀ (o : Nat) (s : State) (h l : Byte), s.rx[o]? = some h → s.rx[o + 1]? = some l →
    s.out.length + 1 ≤ s.params.outDepth →
    exec (.fldU16 o) s = .next { s with
      out := s.out ++ [{ kind := 2, name := 0xFFFF, value := (h ++ l : BitVec 16).setWidth 32 }], err := 0 })

/-- R163: OP 0x33 is FLD_BOOL with the offset in B: OFFSET_RANGE, then OUT_FULL, else one BOOL record named 0xFFFF. -/
def Obligations.FldBoolEmitsFlagField : Prop :=
  (∀ w : Word, opField w = 0x33 → decode w = .ok (.fldBool (bField w).toNat)) ∧
  (∀ (o : Nat) (s : State), s.rx.length < o + 2 → exec (.fldBool o) s = .next { s with err := 4, sticky := true }) ∧
  (∀ (o : Nat) (s : State), o + 2 ≤ s.rx.length → s.params.outDepth < s.out.length + 1 →
    exec (.fldBool o) s = .next { s with err := 6, sticky := true }) ∧
  (∀ (o : Nat) (s : State) (h l : Byte), s.rx[o]? = some h → s.rx[o + 1]? = some l →
    s.out.length + 1 ≤ s.params.outDepth →
    exec (.fldBool o) s = .next { s with
      out := s.out ++ [{ kind := 3, name := 0xFFFF, value := if h = 0 ∧ l = 0 then 0 else 1 }], err := 0 })

/-- R164 with R154: OP 0x34 is FLD_ENUM with the table in A and the offset in B: BAD_TABLE, then OFFSET_RANGE, then OUT_FULL, else
one ENUM record named 0xFFFF whose bit 31 says that the code is outside the table. -/
def Obligations.FldEnumEmitsCodeOfTable : Prop :=
  (∀ w : Word, opField w = 0x34 → decode w = .ok (.fldEnum (aField w).toNat (bField w).toNat)) ∧
  (∀ (t o : Nat) (s : State), 3 + (activeRom s.params).extraTables.length ≤ t →
    exec (.fldEnum t o) s = .next { s with err := 8, sticky := true }) ∧
  (∀ (t o : Nat) (s : State), t < 3 + (activeRom s.params).extraTables.length → s.rx.length < o + 2 →
    exec (.fldEnum t o) s = .next { s with err := 4, sticky := true }) ∧
  (∀ (t o : Nat) (s : State), t < 3 + (activeRom s.params).extraTables.length → o + 2 ≤ s.rx.length →
    s.params.outDepth < s.out.length + 1 → exec (.fldEnum t o) s = .next { s with err := 6, sticky := true }) ∧
  (∀ (t o : Nat) (s : State) (h l : Byte), t < 3 + (activeRom s.params).extraTables.length →
    s.rx[o]? = some h → s.rx[o + 1]? = some l → s.out.length + 1 ≤ s.params.outDepth →
    let code : BitVec 16 := h ++ l
    let unknown : BitVec 32 := if (enumTable (activeRom s.params) t).length ≤ code.toNat then 1 else 0
    exec (.fldEnum t o) s = .next { s with
      out := s.out ++ [{ kind := 4, name := 0xFFFF,
                         value := (unknown <<< 31) ||| (BitVec.ofNat 32 t <<< 16) ||| code.setWidth 32 }], err := 0 })

/-! ## Control -/

/-- R190: OP 0x00 is NOP; it sets ERR to 0, keeps STICKY, and changes nothing else. -/
def Obligations.NopClearsErrAlone : Prop :=
  (∀ w : Word, opField w = 0x00 → decode w = .ok .nop) ∧
  (∀ s : State, exec .nop s = .next { s with err := 0 })

/-- R191: OP 0x40 is OUT_POP; it removes the front record, or raises OUT_EMPTY and OUT stays empty. -/
def Obligations.OutPopRemovesFrontOrRaises : Prop :=
  (∀ w : Word, opField w = 0x40 → decode w = .ok .outPop) ∧
  (∀ (s : State) (r : Record) (rest : List Record), s.out = r :: rest →
    exec .outPop s = .next { s with out := rest, err := 0 }) ∧
  (∀ s : State, s.out = [] → exec .outPop s = .next { s with err := 7, sticky := true })

/-- R192: OP 0x41 is OUT_CLEAR; OUT becomes empty, ERR 0, and nothing else changes. -/
def Obligations.OutClearEmptiesFifo : Prop :=
  (∀ w : Word, opField w = 0x41 → decode w = .ok .outClear) ∧
  (∀ s : State, exec .outClear s = .next { s with out := [], err := 0 })

/-- R194: OP 0x50 is CLR_ERR; ERR and STICKY become 0, and nothing else changes. -/
def Obligations.ClrErrClearsBothFlags : Prop :=
  (∀ w : Word, opField w = 0x50 → decode w = .ok .clrErr) ∧
  (∀ s : State, exec .clrErr s = .next { s with err := 0, sticky := false })

/-- R195: OP 0x5A is SOFT_RESET; every item of state takes its reset value but ENABLE and LOCK, which keep theirs. -/
def Obligations.SoftResetKeepsOnlyCfg : Prop :=
  (∀ w : Word, opField w = 0x5A → decode w = .ok .softReset) ∧
  (∀ s : State, exec .softReset s = .next { s with
    err := 0, sticky := false, reqSlave := 0, reqFc := 0, reqAddr := 0, reqCount := 0, reqValue := 0,
    crc := 0xFFFF, tx := [], rx := [], out := [] })

/-! ## Errors -/

/-- R84: a CMD write whose OP is not listed raises ILLEGAL_OP and has no other effect. -/
def Obligations.IllegalOpcodeRaisesAndChangesNothingElse : Prop :=
  ∀ (w : Word) (s : State), (opField w).toNat ∉ legalOpcodes →
    command w s = .next { s with err := 1, sticky := true }

/-- R211, R212: whatever command raises, the state after it is the state before with ERR the code and STICKY 1. -/
def Obligations.EveryRaiseChangesOnlyTheFlags : Prop :=
  ∀ (w : Word) (s t : State), command w s = .next t → t.err ≠ 0 → t = { s with err := t.err, sticky := true }

/-- R213: STICKY goes from 1 to 0 only by a CLR_ERR, a SOFT_RESET or the hardware reset. -/
def Obligations.StickyClearedOnlyByClearOrReset : Prop :=
  ∀ s t : State, step s = .next t → s.sticky = true → t.sticky = false →
    (∃ rest, s.bus = .hardReset :: rest) ∨
    (∃ w rest, s.bus = .write 0x000 4 w :: rest ∧ (decode w = .ok .clrErr ∨ decode w = .ok .softReset))

/-- R36, R37, R38, R32, R24, R26, R213: which commands may change each item: TX and CRC the encoders (and SOFT_RESET), CRC the CRC
commands too, RX the intake, OUT the decoder and the FIFO commands, the request registers SOFT_RESET alone, and CFG, the
parameters, the pending accesses and the answers no command at all. -/
def Obligations.EachItemChangedOnlyByItsCommands : Prop :=
  ∀ (i : Instr) (s t : State), exec i s = .next t →
    (t.tx ≠ s.tx → i = .encRead ∨ i = .encWrite ∨ (∃ p, i = .encBlk p) ∨ i = .softReset) ∧
    (t.crc ≠ s.crc → i = .crcInit ∨ (∃ b, i = .crcByte b) ∨ i = .encRead ∨ i = .encWrite ∨ (∃ p, i = .encBlk p) ∨
      i = .softReset) ∧
    (t.rx ≠ s.rx → i = .rxClear ∨ (∃ b, i = .rxPush b) ∨ i = .softReset) ∧
    (t.out ≠ s.out → (∃ p, i = .decBlk p) ∨ (∃ o, i = .fldS16 o) ∨ (∃ o, i = .fldU16 o) ∨ (∃ o, i = .fldBool o) ∨
      (∃ n o, i = .fldEnum n o) ∨ i = .outPop ∨ i = .outClear ∨ i = .softReset) ∧
    (i ≠ .softReset → t.reqSlave = s.reqSlave ∧ t.reqFc = s.reqFc ∧ t.reqAddr = s.reqAddr ∧
      t.reqCount = s.reqCount ∧ t.reqValue = s.reqValue) ∧
    t.enable = s.enable ∧ t.lock = s.lock ∧ t.params = s.params ∧ t.bus = s.bus ∧ t.answers = s.answers

/-- R165, R20: DEC_BLK looks at ENABLE, RX, OUT and the parameters alone: two states that agree on them decode alike, whatever their
request registers, CRC, TX and flags hold. -/
def Obligations.DecodeIgnoresRequestState : Prop :=
  ∀ (p : Nat) (s t s' : State), SameDecodeView s t → exec (.decBlk p) s = .next s' →
    ∃ t', exec (.decBlk p) t = .next t' ∧ t'.out = s'.out ∧ t'.rx = s'.rx ∧ t'.err = s'.err

/-! ## The register space -/

/-- R22, R23, R24, R25, R26, R32, R36, R37, R38, R40: what each register reads as. -/
def Obligations.RegistersReadAsMapped : Prop :=
  ∀ s : State,
    readValue s 0x000 = 0 ∧
    readValue s 0x004 = s.err.setWidth 32 ||| (if s.sticky then 0x80 else 0) ∧
    readValue s 0x008 = s.enable.setWidth 32 ||| (if s.lock then 0x80000000 else 0) ∧
    readValue s 0x00C = BitVec.ofNat 32 (catlen s) ∧
    readValue s 0x010 = s.reqSlave.setWidth 32 ∧ readValue s 0x014 = s.reqFc.setWidth 32 ∧
    readValue s 0x018 = s.reqAddr.setWidth 32 ∧ readValue s 0x01C = s.reqCount.setWidth 32 ∧
    readValue s 0x020 = s.reqValue.setWidth 32 ∧
    readValue s 0x024 = s.crc.setWidth 32 ∧
    (s.tx.length ≤ 11 → readValue s 0x028 = BitVec.ofNat 32 s.tx.length) ∧
    (s.rx.length ≤ 65535 → readValue s 0x02C = BitVec.ofNat 32 s.rx.length) ∧
    (s.out.length ≤ 65535 → readValue s 0x030 = BitVec.ofNat 32 s.out.length) ∧
    (s.out = [] → readValue s 0x034 = 0 ∧ readValue s 0x038 = 0) ∧
    (∀ r rest, s.out = r :: rest →
      readValue s 0x034 = (r.name.setWidth 32 <<< 16) ||| r.kind.setWidth 32 ∧ readValue s 0x038 = r.value) ∧
    (∀ i, i ≤ 10 → readValue s (0x040 + 4 * i) = (s.tx.getD i 0).setWidth 32) ∧
    (∀ i, i < s.params.rxMax → readValue s (0x400 + 4 * i) = (s.rx.getD i 0).setWidth 32)

/-- R24: a CFG write while LOCK is 0 takes ENABLE from [13:0] and LOCK from [31] and no other bit; while LOCK is 1 it is ignored
and raises no error. -/
def Obligations.CfgWriteTakenUnlessLocked : Prop :=
  (∀ (s : State) (v : Word), s.lock = false →
    performWrite 0x008 v s = .next { s with enable := v.extractLsb' 0 14, lock := v.getLsbD 31 }) ∧
  (∀ (s : State) (v : Word), s.lock = true → performWrite 0x008 v s = .next s)

/-- R24: once LOCK is 1, no step but the hardware reset changes CFG. -/
def Obligations.LockedCfgFrozenUntilReset : Prop :=
  ∀ s t : State, step s = .next t → s.lock = true → (∀ rest, s.bus ≠ .hardReset :: rest) →
    t.lock = true ∧ t.enable = s.enable

/-- R26: a write to a request register keeps the bits that fit, the register reads them back with its upper bits 0, and nothing else
changes. -/
def Obligations.RequestRegistersKeepBitsThatFit : Prop :=
  ∀ (s : State) (v : Word),
    performWrite 0x010 v s = .next { s with reqSlave := v.extractLsb' 0 8 } ∧
    performWrite 0x014 v s = .next { s with reqFc := v.extractLsb' 0 8 } ∧
    performWrite 0x018 v s = .next { s with reqAddr := v.extractLsb' 0 16 } ∧
    performWrite 0x01C v s = .next { s with reqCount := v.extractLsb' 0 16 } ∧
    performWrite 0x020 v s = .next { s with reqValue := v.extractLsb' 0 16 } ∧
    readValue s 0x010 = s.reqSlave.setWidth 32 ∧ readValue s 0x014 = s.reqFc.setWidth 32 ∧
    readValue s 0x018 = s.reqAddr.setWidth 32 ∧ readValue s 0x01C = s.reqCount.setWidth 32 ∧
    readValue s 0x020 = s.reqValue.setWidth 32

/-- R44, R64: a write to a read-only register is ignored and raises no error. -/
def Obligations.ReadOnlyRegistersIgnoreWrites : Prop :=
  ∀ (s : State) (v : Word) (off : Nat),
    (off ∈ [0x004, 0x00C, 0x024, 0x028, 0x02C, 0x030, 0x034, 0x038] ∨ (∃ i, i ≤ 10 ∧ off = 0x040 + 4 * i) ∨
      (∃ i, i < s.params.rxMax ∧ off = 0x400 + 4 * i)) →
    performWrite off v s = .next s

/-- R63: an unmapped offset reads 0 and ignores writes, without an error. -/
def Obligations.UnmappedOffsetsReadZeroAndIgnoreWrites : Prop :=
  ∀ (s : State) (v : Word) (off : Nat),
    (off = 0x03C ∨ (0x06C ≤ off ∧ off ≤ 0x3FC) ∨ 0x400 + 4 * s.params.rxMax ≤ off) →
    readValue s off = 0 ∧ performWrite off v s = .next s

/-- R61: an access that is not 4 bytes wide at a multiple of 4 has no step: it is refused. -/
def Obligations.NarrowOrMisalignedAccessRefused : Prop :=
  ∀ (s : State) (off n : Nat) (v : Word) (rest : List BusAccess), paramsAdmitted s.params = true →
    ¬ (n = 4 ∧ off % 4 = 0) →
    (s.bus = .read off n :: rest → step s = .refused .badAccess) ∧
    (s.bus = .write off n v :: rest → step s = .refused .badAccess)

/-! ## Steps -/

/-- R21, R22, R65, R84, R240: the pending access is performed whole by the next step, on the state with the access off the list. A write
to CMD is `exec` of the decoded command, or ILLEGAL_OP; an aligned 4-byte write at any offset is `performWrite` of it, which at CMD
is `command`; a hardware reset is `perform` of it. That pending accesses are a list, that the step takes its first, and that
`withFetchWord` puts a CMD write in front of it, so that the very next step performs that word, is the model's choice (log 1, log 9). -/
def Obligations.StepPerformsTheDecodedCommand : Prop :=
  (∀ (s : State) (w : Word) (i : Instr) (rest : List BusAccess), paramsAdmitted s.params = true →
    s.bus = .write 0x000 4 w :: rest → decode w = .ok i → step s = exec i { s with bus := rest }) ∧
  (∀ (s : State) (w : Word) (rest : List BusAccess), paramsAdmitted s.params = true →
    s.bus = .write 0x000 4 w :: rest → (opField w).toNat ∉ legalOpcodes →
    step s = .next { s with bus := rest, err := 1, sticky := true }) ∧
  (∀ (s : State) (off : Nat) (v : Word) (rest : List BusAccess), paramsAdmitted s.params = true → off % 4 = 0 →
    s.bus = .write off 4 v :: rest → step s = performWrite off v { s with bus := rest }) ∧
  (∀ (s : State) (w : Word), performWrite 0x000 w s = command w s) ∧
  (∀ (s : State) (rest : List BusAccess), paramsAdmitted s.params = true →
    s.bus = .hardReset :: rest → step s = perform .hardReset { s with bus := rest }) ∧
  (∀ (s : State) (nbits w : Nat) (i : Instr), paramsAdmitted s.params = true →
    decodeTableWord nbits w = some i → step (s.withFetchWord nbits w) = exec i s)

/-- R64: a read returns its value and has no side effect on the block. That the access is taken off a pending list is the model's
choice (log 1), and so is that the value read is appended to the answers, a list the block never reads (log 2). -/
def Obligations.ReadsHaveNoSideEffect : Prop :=
  ∀ (s : State) (off : Nat) (rest : List BusAccess), paramsAdmitted s.params = true → off % 4 = 0 →
    s.bus = .read off 4 :: rest →
    step s = .next { s with bus := rest, answers := s.answers ++ [readValue s off] }

/-- R14: the block never steps on its own: with no access pending nothing changes. That such a step answers the same state is the
model's choice (log 1). -/
def Obligations.NothingPendingNothingChanges : Prop :=
  ∀ s : State, paramsAdmitted s.params = true → s.bus = [] → step s = .next s

/-- R65, R61, R240: under admitted parameters every admitted access is served by one step, but for a catalog command that the ROM
contents give no meaning: the step answers a next state. That the access is taken off a list, and that the accesses after it stay,
through a hardware reset too, is the model's choice (log 1, log 9). -/
def Obligations.EveryAdmittedAccessIsServed : Prop :=
  ∀ (s : State) (a : BusAccess) (rest : List BusAccess), paramsAdmitted s.params = true → s.bus = a :: rest →
    AccessHasMeaning s a →
    (a = .hardReset ∨ (∃ off, off % 4 = 0 ∧ a = .read off 4) ∨ (∃ off v, off % 4 = 0 ∧ a = .write off 4 v)) →
    ∃ t, step s = .next t ∧ t.bus = rest

/-! ## Reset and the invariant -/

/-- R45: every item of state after reset, whatever the parameters, which reset leaves at their values; CATLEN is then 0 and TXB, RXB,
OUT_HEAD0 and OUT_HEAD1 read 0. The reset state of the machine is such a state. Which parameters it has, and the two lists of the
host's side, are the model's choice and not part of this statement (log 1, log 2, log 3). -/
def Obligations.ResetValuesAsListed : Prop :=
  (∀ p : Params,
    let s := State.resetWith p
    s.err = 0 ∧ s.sticky = false ∧ s.enable = 0 ∧ s.lock = false ∧ s.reqSlave = 0 ∧ s.reqFc = 0 ∧ s.reqAddr = 0 ∧
    s.reqCount = 0 ∧ s.reqValue = 0 ∧ s.crc = 0xFFFF ∧ s.tx = [] ∧ s.rx = [] ∧ s.out = [] ∧ s.params = p ∧
    catlen s = 0 ∧ readReg s .outHead0 = 0 ∧ readReg s .outHead1 = 0 ∧
    (∀ i, readReg s (.txb i) = 0) ∧ (∀ i, readReg s (.rxb i) = 0)) ∧
  (∃ p : Params, State.reset = State.resetWith p)

/-- R240, R45, R195: the hardware reset puts every item of state at its reset value, CFG too, whatever the state, and the parameters
stay; SOFT_RESET is the same except that it keeps CFG. That the pending accesses and the answers, which are the model's own fields,
survive the hardware reset is the model's choice (log 9). -/
def Obligations.HardResetRestoresEveryItem : Prop :=
  ∀ s : State,
    let t : State :=
      { err := 0, sticky := false, enable := 0, lock := false, reqSlave := 0, reqFc := 0, reqAddr := 0,
        reqCount := 0, reqValue := 0, crc := 0xFFFF, tx := [], rx := [], out := [],
        params := s.params, bus := s.bus, answers := s.answers }
    perform .hardReset s = .next t ∧ exec .softReset s = .next { t with enable := s.enable, lock := s.lock }

/-- R36, R37, R38, R39, R23, R104(a), U11, U12: every step keeps the invariant, from every state that has it. -/
def Obligations.EveryStepKeepsTheInvariant : Prop :=
  ∀ s t : State, BlockInv s → step s = .next t → BlockInv t

/-- R45: the state after reset has the invariant, under any parameters. -/
def Obligations.ResetHasTheInvariant : Prop :=
  BlockInv State.reset ∧ ∀ p : Params, BlockInv (State.resetWith p)
end

