-- ==== Sys2Proof/Laws/State.lean ====
section
/-! SUPPORT. The small lemmas of the state: one per field per update, each true by rfl. -/

namespace Sys2Proof.Machine

variable (s : State)

/-! ## flagsOnComplete -/

@[simp] theorem flagsOnComplete_err : (flagsOnComplete s).err = 0 := rfl
@[simp] theorem flagsOnComplete_sticky : (flagsOnComplete s).sticky = s.sticky := rfl
@[simp] theorem flagsOnComplete_enable : (flagsOnComplete s).enable = s.enable := rfl
@[simp] theorem flagsOnComplete_lock : (flagsOnComplete s).lock = s.lock := rfl
@[simp] theorem flagsOnComplete_reqSlave : (flagsOnComplete s).reqSlave = s.reqSlave := rfl
@[simp] theorem flagsOnComplete_reqFc : (flagsOnComplete s).reqFc = s.reqFc := rfl
@[simp] theorem flagsOnComplete_reqAddr : (flagsOnComplete s).reqAddr = s.reqAddr := rfl
@[simp] theorem flagsOnComplete_reqCount : (flagsOnComplete s).reqCount = s.reqCount := rfl
@[simp] theorem flagsOnComplete_reqValue : (flagsOnComplete s).reqValue = s.reqValue := rfl
@[simp] theorem flagsOnComplete_crc : (flagsOnComplete s).crc = s.crc := rfl
@[simp] theorem flagsOnComplete_tx : (flagsOnComplete s).tx = s.tx := rfl
@[simp] theorem flagsOnComplete_rx : (flagsOnComplete s).rx = s.rx := rfl
@[simp] theorem flagsOnComplete_out : (flagsOnComplete s).out = s.out := rfl
@[simp] theorem flagsOnComplete_params : (flagsOnComplete s).params = s.params := rfl
@[simp] theorem flagsOnComplete_bus : (flagsOnComplete s).bus = s.bus := rfl
@[simp] theorem flagsOnComplete_answers : (flagsOnComplete s).answers = s.answers := rfl

/-! ## flagsOnRaise -/

@[simp] theorem flagsOnRaise_err (c : ErrCode) : (flagsOnRaise c s).err = c.code := rfl
@[simp] theorem flagsOnRaise_sticky (c : ErrCode) : (flagsOnRaise c s).sticky = true := rfl
@[simp] theorem flagsOnRaise_enable (c : ErrCode) : (flagsOnRaise c s).enable = s.enable := rfl
@[simp] theorem flagsOnRaise_lock (c : ErrCode) : (flagsOnRaise c s).lock = s.lock := rfl
@[simp] theorem flagsOnRaise_reqSlave (c : ErrCode) : (flagsOnRaise c s).reqSlave = s.reqSlave := rfl
@[simp] theorem flagsOnRaise_reqFc (c : ErrCode) : (flagsOnRaise c s).reqFc = s.reqFc := rfl
@[simp] theorem flagsOnRaise_reqAddr (c : ErrCode) : (flagsOnRaise c s).reqAddr = s.reqAddr := rfl
@[simp] theorem flagsOnRaise_reqCount (c : ErrCode) : (flagsOnRaise c s).reqCount = s.reqCount := rfl
@[simp] theorem flagsOnRaise_reqValue (c : ErrCode) : (flagsOnRaise c s).reqValue = s.reqValue := rfl
@[simp] theorem flagsOnRaise_crc (c : ErrCode) : (flagsOnRaise c s).crc = s.crc := rfl
@[simp] theorem flagsOnRaise_tx (c : ErrCode) : (flagsOnRaise c s).tx = s.tx := rfl
@[simp] theorem flagsOnRaise_rx (c : ErrCode) : (flagsOnRaise c s).rx = s.rx := rfl
@[simp] theorem flagsOnRaise_out (c : ErrCode) : (flagsOnRaise c s).out = s.out := rfl
@[simp] theorem flagsOnRaise_params (c : ErrCode) : (flagsOnRaise c s).params = s.params := rfl
@[simp] theorem flagsOnRaise_bus (c : ErrCode) : (flagsOnRaise c s).bus = s.bus := rfl
@[simp] theorem flagsOnRaise_answers (c : ErrCode) : (flagsOnRaise c s).answers = s.answers := rfl

/-! ## flagsCleared -/

@[simp] theorem flagsCleared_err : (flagsCleared s).err = 0 := rfl
@[simp] theorem flagsCleared_sticky : (flagsCleared s).sticky = false := rfl
@[simp] theorem flagsCleared_enable : (flagsCleared s).enable = s.enable := rfl
@[simp] theorem flagsCleared_lock : (flagsCleared s).lock = s.lock := rfl
@[simp] theorem flagsCleared_reqSlave : (flagsCleared s).reqSlave = s.reqSlave := rfl
@[simp] theorem flagsCleared_reqFc : (flagsCleared s).reqFc = s.reqFc := rfl
@[simp] theorem flagsCleared_reqAddr : (flagsCleared s).reqAddr = s.reqAddr := rfl
@[simp] theorem flagsCleared_reqCount : (flagsCleared s).reqCount = s.reqCount := rfl
@[simp] theorem flagsCleared_reqValue : (flagsCleared s).reqValue = s.reqValue := rfl
@[simp] theorem flagsCleared_crc : (flagsCleared s).crc = s.crc := rfl
@[simp] theorem flagsCleared_tx : (flagsCleared s).tx = s.tx := rfl
@[simp] theorem flagsCleared_rx : (flagsCleared s).rx = s.rx := rfl
@[simp] theorem flagsCleared_out : (flagsCleared s).out = s.out := rfl
@[simp] theorem flagsCleared_params : (flagsCleared s).params = s.params := rfl
@[simp] theorem flagsCleared_bus : (flagsCleared s).bus = s.bus := rfl
@[simp] theorem flagsCleared_answers : (flagsCleared s).answers = s.answers := rfl

/-! ## setCrc -/

@[simp] theorem setCrc_err (c : Half) : (setCrc c s).err = s.err := rfl
@[simp] theorem setCrc_sticky (c : Half) : (setCrc c s).sticky = s.sticky := rfl
@[simp] theorem setCrc_enable (c : Half) : (setCrc c s).enable = s.enable := rfl
@[simp] theorem setCrc_lock (c : Half) : (setCrc c s).lock = s.lock := rfl
@[simp] theorem setCrc_reqSlave (c : Half) : (setCrc c s).reqSlave = s.reqSlave := rfl
@[simp] theorem setCrc_reqFc (c : Half) : (setCrc c s).reqFc = s.reqFc := rfl
@[simp] theorem setCrc_reqAddr (c : Half) : (setCrc c s).reqAddr = s.reqAddr := rfl
@[simp] theorem setCrc_reqCount (c : Half) : (setCrc c s).reqCount = s.reqCount := rfl
@[simp] theorem setCrc_reqValue (c : Half) : (setCrc c s).reqValue = s.reqValue := rfl
@[simp] theorem setCrc_crc (c : Half) : (setCrc c s).crc = c := rfl
@[simp] theorem setCrc_tx (c : Half) : (setCrc c s).tx = s.tx := rfl
@[simp] theorem setCrc_rx (c : Half) : (setCrc c s).rx = s.rx := rfl
@[simp] theorem setCrc_out (c : Half) : (setCrc c s).out = s.out := rfl
@[simp] theorem setCrc_params (c : Half) : (setCrc c s).params = s.params := rfl
@[simp] theorem setCrc_bus (c : Half) : (setCrc c s).bus = s.bus := rfl
@[simp] theorem setCrc_answers (c : Half) : (setCrc c s).answers = s.answers := rfl

/-! ## setTx -/

@[simp] theorem setTx_err (f : List Byte) : (setTx f s).err = s.err := rfl
@[simp] theorem setTx_sticky (f : List Byte) : (setTx f s).sticky = s.sticky := rfl
@[simp] theorem setTx_enable (f : List Byte) : (setTx f s).enable = s.enable := rfl
@[simp] theorem setTx_lock (f : List Byte) : (setTx f s).lock = s.lock := rfl
@[simp] theorem setTx_reqSlave (f : List Byte) : (setTx f s).reqSlave = s.reqSlave := rfl
@[simp] theorem setTx_reqFc (f : List Byte) : (setTx f s).reqFc = s.reqFc := rfl
@[simp] theorem setTx_reqAddr (f : List Byte) : (setTx f s).reqAddr = s.reqAddr := rfl
@[simp] theorem setTx_reqCount (f : List Byte) : (setTx f s).reqCount = s.reqCount := rfl
@[simp] theorem setTx_reqValue (f : List Byte) : (setTx f s).reqValue = s.reqValue := rfl
@[simp] theorem setTx_crc (f : List Byte) : (setTx f s).crc = s.crc := rfl
@[simp] theorem setTx_tx (f : List Byte) : (setTx f s).tx = f := rfl
@[simp] theorem setTx_rx (f : List Byte) : (setTx f s).rx = s.rx := rfl
@[simp] theorem setTx_out (f : List Byte) : (setTx f s).out = s.out := rfl
@[simp] theorem setTx_params (f : List Byte) : (setTx f s).params = s.params := rfl
@[simp] theorem setTx_bus (f : List Byte) : (setTx f s).bus = s.bus := rfl
@[simp] theorem setTx_answers (f : List Byte) : (setTx f s).answers = s.answers := rfl

/-! ## setRx -/

@[simp] theorem setRx_err (bs : List Byte) : (setRx bs s).err = s.err := rfl
@[simp] theorem setRx_sticky (bs : List Byte) : (setRx bs s).sticky = s.sticky := rfl
@[simp] theorem setRx_enable (bs : List Byte) : (setRx bs s).enable = s.enable := rfl
@[simp] theorem setRx_lock (bs : List Byte) : (setRx bs s).lock = s.lock := rfl
@[simp] theorem setRx_reqSlave (bs : List Byte) : (setRx bs s).reqSlave = s.reqSlave := rfl
@[simp] theorem setRx_reqFc (bs : List Byte) : (setRx bs s).reqFc = s.reqFc := rfl
@[simp] theorem setRx_reqAddr (bs : List Byte) : (setRx bs s).reqAddr = s.reqAddr := rfl
@[simp] theorem setRx_reqCount (bs : List Byte) : (setRx bs s).reqCount = s.reqCount := rfl
@[simp] theorem setRx_reqValue (bs : List Byte) : (setRx bs s).reqValue = s.reqValue := rfl
@[simp] theorem setRx_crc (bs : List Byte) : (setRx bs s).crc = s.crc := rfl
@[simp] theorem setRx_tx (bs : List Byte) : (setRx bs s).tx = s.tx := rfl
@[simp] theorem setRx_rx (bs : List Byte) : (setRx bs s).rx = bs := rfl
@[simp] theorem setRx_out (bs : List Byte) : (setRx bs s).out = s.out := rfl
@[simp] theorem setRx_params (bs : List Byte) : (setRx bs s).params = s.params := rfl
@[simp] theorem setRx_bus (bs : List Byte) : (setRx bs s).bus = s.bus := rfl
@[simp] theorem setRx_answers (bs : List Byte) : (setRx bs s).answers = s.answers := rfl

/-! ## setOut -/

@[simp] theorem setOut_err (rs : List Record) : (setOut rs s).err = s.err := rfl
@[simp] theorem setOut_sticky (rs : List Record) : (setOut rs s).sticky = s.sticky := rfl
@[simp] theorem setOut_enable (rs : List Record) : (setOut rs s).enable = s.enable := rfl
@[simp] theorem setOut_lock (rs : List Record) : (setOut rs s).lock = s.lock := rfl
@[simp] theorem setOut_reqSlave (rs : List Record) : (setOut rs s).reqSlave = s.reqSlave := rfl
@[simp] theorem setOut_reqFc (rs : List Record) : (setOut rs s).reqFc = s.reqFc := rfl
@[simp] theorem setOut_reqAddr (rs : List Record) : (setOut rs s).reqAddr = s.reqAddr := rfl
@[simp] theorem setOut_reqCount (rs : List Record) : (setOut rs s).reqCount = s.reqCount := rfl
@[simp] theorem setOut_reqValue (rs : List Record) : (setOut rs s).reqValue = s.reqValue := rfl
@[simp] theorem setOut_crc (rs : List Record) : (setOut rs s).crc = s.crc := rfl
@[simp] theorem setOut_tx (rs : List Record) : (setOut rs s).tx = s.tx := rfl
@[simp] theorem setOut_rx (rs : List Record) : (setOut rs s).rx = s.rx := rfl
@[simp] theorem setOut_out (rs : List Record) : (setOut rs s).out = rs := rfl
@[simp] theorem setOut_params (rs : List Record) : (setOut rs s).params = s.params := rfl
@[simp] theorem setOut_bus (rs : List Record) : (setOut rs s).bus = s.bus := rfl
@[simp] theorem setOut_answers (rs : List Record) : (setOut rs s).answers = s.answers := rfl

/-! ## answer -/

@[simp] theorem answer_err (v : Word) : (answer v s).err = s.err := rfl
@[simp] theorem answer_sticky (v : Word) : (answer v s).sticky = s.sticky := rfl
@[simp] theorem answer_enable (v : Word) : (answer v s).enable = s.enable := rfl
@[simp] theorem answer_lock (v : Word) : (answer v s).lock = s.lock := rfl
@[simp] theorem answer_reqSlave (v : Word) : (answer v s).reqSlave = s.reqSlave := rfl
@[simp] theorem answer_reqFc (v : Word) : (answer v s).reqFc = s.reqFc := rfl
@[simp] theorem answer_reqAddr (v : Word) : (answer v s).reqAddr = s.reqAddr := rfl
@[simp] theorem answer_reqCount (v : Word) : (answer v s).reqCount = s.reqCount := rfl
@[simp] theorem answer_reqValue (v : Word) : (answer v s).reqValue = s.reqValue := rfl
@[simp] theorem answer_crc (v : Word) : (answer v s).crc = s.crc := rfl
@[simp] theorem answer_tx (v : Word) : (answer v s).tx = s.tx := rfl
@[simp] theorem answer_rx (v : Word) : (answer v s).rx = s.rx := rfl
@[simp] theorem answer_out (v : Word) : (answer v s).out = s.out := rfl
@[simp] theorem answer_params (v : Word) : (answer v s).params = s.params := rfl
@[simp] theorem answer_bus (v : Word) : (answer v s).bus = s.bus := rfl
@[simp] theorem answer_answers (v : Word) : (answer v s).answers = s.answers ++ [v] := rfl

/-! ## popBus -/

@[simp] theorem popBus_err : (popBus s).err = s.err := rfl
@[simp] theorem popBus_sticky : (popBus s).sticky = s.sticky := rfl
@[simp] theorem popBus_enable : (popBus s).enable = s.enable := rfl
@[simp] theorem popBus_lock : (popBus s).lock = s.lock := rfl
@[simp] theorem popBus_reqSlave : (popBus s).reqSlave = s.reqSlave := rfl
@[simp] theorem popBus_reqFc : (popBus s).reqFc = s.reqFc := rfl
@[simp] theorem popBus_reqAddr : (popBus s).reqAddr = s.reqAddr := rfl
@[simp] theorem popBus_reqCount : (popBus s).reqCount = s.reqCount := rfl
@[simp] theorem popBus_reqValue : (popBus s).reqValue = s.reqValue := rfl
@[simp] theorem popBus_crc : (popBus s).crc = s.crc := rfl
@[simp] theorem popBus_tx : (popBus s).tx = s.tx := rfl
@[simp] theorem popBus_rx : (popBus s).rx = s.rx := rfl
@[simp] theorem popBus_out : (popBus s).out = s.out := rfl
@[simp] theorem popBus_params : (popBus s).params = s.params := rfl
@[simp] theorem popBus_bus : (popBus s).bus = s.bus.tail := rfl
@[simp] theorem popBus_answers : (popBus s).answers = s.answers := rfl

/-! ## commandFirst -/

@[simp] theorem commandFirst_err (w : Word) : (commandFirst w s).err = s.err := rfl
@[simp] theorem commandFirst_sticky (w : Word) : (commandFirst w s).sticky = s.sticky := rfl
@[simp] theorem commandFirst_enable (w : Word) : (commandFirst w s).enable = s.enable := rfl
@[simp] theorem commandFirst_lock (w : Word) : (commandFirst w s).lock = s.lock := rfl
@[simp] theorem commandFirst_reqSlave (w : Word) : (commandFirst w s).reqSlave = s.reqSlave := rfl
@[simp] theorem commandFirst_reqFc (w : Word) : (commandFirst w s).reqFc = s.reqFc := rfl
@[simp] theorem commandFirst_reqAddr (w : Word) : (commandFirst w s).reqAddr = s.reqAddr := rfl
@[simp] theorem commandFirst_reqCount (w : Word) : (commandFirst w s).reqCount = s.reqCount := rfl
@[simp] theorem commandFirst_reqValue (w : Word) : (commandFirst w s).reqValue = s.reqValue := rfl
@[simp] theorem commandFirst_crc (w : Word) : (commandFirst w s).crc = s.crc := rfl
@[simp] theorem commandFirst_tx (w : Word) : (commandFirst w s).tx = s.tx := rfl
@[simp] theorem commandFirst_rx (w : Word) : (commandFirst w s).rx = s.rx := rfl
@[simp] theorem commandFirst_out (w : Word) : (commandFirst w s).out = s.out := rfl
@[simp] theorem commandFirst_params (w : Word) : (commandFirst w s).params = s.params := rfl
@[simp] theorem commandFirst_bus (w : Word) : (commandFirst w s).bus = .write 0x000 4 w :: s.bus := rfl
@[simp] theorem commandFirst_answers (w : Word) : (commandFirst w s).answers = s.answers := rfl

/-! ## softResetState -/

@[simp] theorem softResetState_err : (softResetState s).err = 0 := rfl
@[simp] theorem softResetState_sticky : (softResetState s).sticky = false := rfl
@[simp] theorem softResetState_enable : (softResetState s).enable = s.enable := rfl
@[simp] theorem softResetState_lock : (softResetState s).lock = s.lock := rfl
@[simp] theorem softResetState_reqSlave : (softResetState s).reqSlave = 0 := rfl
@[simp] theorem softResetState_reqFc : (softResetState s).reqFc = 0 := rfl
@[simp] theorem softResetState_reqAddr : (softResetState s).reqAddr = 0 := rfl
@[simp] theorem softResetState_reqCount : (softResetState s).reqCount = 0 := rfl
@[simp] theorem softResetState_reqValue : (softResetState s).reqValue = 0 := rfl
@[simp] theorem softResetState_crc : (softResetState s).crc = 0xFFFF := rfl
@[simp] theorem softResetState_tx : (softResetState s).tx = [] := rfl
@[simp] theorem softResetState_rx : (softResetState s).rx = [] := rfl
@[simp] theorem softResetState_out : (softResetState s).out = [] := rfl
@[simp] theorem softResetState_params : (softResetState s).params = s.params := rfl
@[simp] theorem softResetState_bus : (softResetState s).bus = s.bus := rfl
@[simp] theorem softResetState_answers : (softResetState s).answers = s.answers := rfl

/-! ## hardResetState -/

@[simp] theorem hardResetState_err : (hardResetState s).err = 0 := rfl
@[simp] theorem hardResetState_sticky : (hardResetState s).sticky = false := rfl
@[simp] theorem hardResetState_enable : (hardResetState s).enable = 0 := rfl
@[simp] theorem hardResetState_lock : (hardResetState s).lock = false := rfl
@[simp] theorem hardResetState_reqSlave : (hardResetState s).reqSlave = 0 := rfl
@[simp] theorem hardResetState_reqFc : (hardResetState s).reqFc = 0 := rfl
@[simp] theorem hardResetState_reqAddr : (hardResetState s).reqAddr = 0 := rfl
@[simp] theorem hardResetState_reqCount : (hardResetState s).reqCount = 0 := rfl
@[simp] theorem hardResetState_reqValue : (hardResetState s).reqValue = 0 := rfl
@[simp] theorem hardResetState_crc : (hardResetState s).crc = 0xFFFF := rfl
@[simp] theorem hardResetState_tx : (hardResetState s).tx = [] := rfl
@[simp] theorem hardResetState_rx : (hardResetState s).rx = [] := rfl
@[simp] theorem hardResetState_out : (hardResetState s).out = [] := rfl
@[simp] theorem hardResetState_params : (hardResetState s).params = s.params := rfl
@[simp] theorem hardResetState_bus : (hardResetState s).bus = s.bus := rfl
@[simp] theorem hardResetState_answers : (hardResetState s).answers = s.answers := rfl

end Sys2Proof.Machine
end

