-- ==== Sys2Proof/Laws/Ops.lean ====
section
/-! SUPPORT. One lemma for each shared operation that says once everything it can do. -/

namespace Sys2Proof

/-! ## The command word -/

@[simp] theorem opField_cmdWord (op a : Byte) (b : Half) : opField (cmdWord op a b) = op := by
  ext i hi
  simp only [opField, cmdWord, BitVec.getElem_extractLsb', BitVec.getLsbD_or, BitVec.getLsbD_shiftLeft,
    BitVec.getLsbD_setWidth]
  simp [show i < 16 by omega, show i < 32 by omega, hi]

@[simp] theorem aField_cmdWord (op a : Byte) (b : Half) : aField (cmdWord op a b) = a := by
  ext i hi
  simp only [aField, cmdWord, BitVec.getElem_extractLsb', BitVec.getLsbD_or, BitVec.getLsbD_shiftLeft,
    BitVec.getLsbD_setWidth]
  simp [show 8 + i < 16 by omega, show 8 + i < 32 by omega, show i < 32 by omega,
    BitVec.getLsbD_eq_getElem hi]

@[simp] theorem bField_cmdWord (op a : Byte) (b : Half) : bField (cmdWord op a b) = b := by
  ext i hi
  simp only [bField, cmdWord, BitVec.getElem_extractLsb', BitVec.getLsbD_or, BitVec.getLsbD_shiftLeft,
    BitVec.getLsbD_setWidth]
  have h1 : op.getLsbD (16 + i) = false := BitVec.getLsbD_of_ge _ _ (by omega)
  have h2 : a.getLsbD (16 + i - 8) = false := BitVec.getLsbD_of_ge _ _ (by omega)
  simp [show 16 + i < 32 by omega, show i < 32 by omega, h1, h2, BitVec.getLsbD_eq_getElem hi]

namespace Machine

variable {s t : State}

/-! ## Completing and raising -/

@[simp] theorem complete_eq_next : complete s = .next t ↔ t = flagsOnComplete s := by
  simp [complete, eq_comm]

@[simp] theorem raise_eq_next {c : ErrCode} : raise c s = .next t ↔ t = flagsOnRaise c s := by
  simp [raise, eq_comm]

/-- Every code an error has is one R210 defines, and none is 0. -/
theorem code_legal (c : ErrCode) : 1 ≤ c.code.toNat ∧ c.code.toNat ≤ 8 := by
  cases c <;> decide

/-- All or nothing (R159). -/
theorem emitAll_next {recs : List Record} (h : emitAll recs s = .next t) :
    (outLacks recs.length s = true ∧ t = flagsOnRaise .outFull s) ∨
    (outLacks recs.length s = false ∧ t = flagsOnComplete (setOut (s.out ++ recs) s)) := by
  unfold emitAll at h
  split at h <;> simp_all

/-! ## Operands -/

/-- A position has a block exactly when it is below CATLEN (R31). -/
theorem enabledAt_eq_none_iff {p : Nat} : enabledAt s p = none ↔ catlen s ≤ p := by
  simp [enabledAt, catlen]

/-- CATLEN is at most 14 (R25). -/
theorem catlen_le : catlen s ≤ 14 := by
  simpa [catlen, enabledBlocks] using
    List.length_filter_le (fun b : Fin 14 => s.enable.getLsbD b.val) (List.finRange 14)

/-- Everything the position lookup can do when it answers a next state (R124, R160). -/
theorem withBlock_next {p : Nat} {k : Config.BlockDesc → Result} (h : withBlock p s k = .next t) :
    (catlen s ≤ p ∧ t = flagsOnRaise .badPos s) ∨
    (∃ b, enabledAt s p = some b ∧ romOk s.params (activeRom s.params) = true ∧ k (catEntry s b) = .next t) := by
  unfold withBlock at h
  split at h
  · rename_i hn
    exact .inl ⟨enabledAt_eq_none_iff.mp hn, by simpa using h⟩
  · rename_i b hb
    split at h
    · rename_i hr
      exact .inr ⟨b, hb, hr, h⟩
    · cases h

/-! ## Families -/

/-- Everything an encoder's end can do (R120). -/
theorem sendFrame_next {h : List Byte} (e : sendFrame h s = .next t) :
    t = flagsOnComplete (setCrc (crc16 h) (setTx (frameOf h) s)) := by
  simpa [sendFrame] using e

/-- Everything an FLD command can do once its table is known (R161 to R164). -/
theorem emitField_next {conv : Half → Record} {o : Nat} (h : emitField conv o s = .next t) :
    (s.rx.length < o + 2 ∧ t = flagsOnRaise .offsetRange s) ∨
    (o + 2 ≤ s.rx.length ∧ outLacks 1 s = true ∧ t = flagsOnRaise .outFull s) ∨
    (o + 2 ≤ s.rx.length ∧ outLacks 1 s = false ∧
      t = flagsOnComplete (setOut (s.out ++ [conv (raw s.rx o)]) s)) := by
  unfold emitField at h
  split at h
  · rename_i ho
    exact .inl ⟨by simpa [offsetOut] using ho, by simpa using h⟩
  · rename_i ho
    have ho : o + 2 ≤ s.rx.length := by simpa [offsetOut] using ho
    rcases emitAll_next h with ⟨h1, h2⟩ | ⟨h1, h2⟩
    · exact .inr (.inl ⟨ho, h1, h2⟩)
    · exact .inr (.inr ⟨ho, h1, h2⟩)

/-- Everything the decode of a block can do when it answers a next state (R158, R159, R160). -/
theorem decodeBlock_next {d : Config.BlockDesc} (h : decodeBlock d s = .next t) :
    (s.rx.length ≠ d.explen ∧ t = flagsOnRaise .lenMismatch s) ∨
    (s.rx.length = d.explen ∧ emitAll (blockRecs (activeRom s.params) s.rx d) s = .next t) := by
  unfold decodeBlock at h
  split at h
  · rename_i hl
    exact .inl ⟨hl, by simpa using h⟩
  · rename_i hl
    split at h
    · cases h
    · exact .inr ⟨by simpa using hl, h⟩

/-! ## The bus -/

/-- Everything a write to CMD can do: the decoded command, or ILLEGAL_OP (R84). -/
theorem command_next {w : Word} (h : command w s = .next t) :
    (∃ i, decode w = .ok i ∧ exec i s = .next t) ∨
    (∃ op, decode w = .error (.illegalOp op) ∧ t = flagsOnRaise .illegalOp s) := by
  unfold command at h
  split at h
  · rename_i i hi
    exact .inl ⟨i, hi, h⟩
  · rename_i op ho
    exact .inr ⟨op, ho, by simpa using h⟩

/-- Everything one access can do. -/
theorem perform_next {a : BusAccess} (h : perform a s = .next t) :
    (a = .hardReset ∧ t = hardResetState s) ∨
    (∃ off, a = .read off 4 ∧ off % 4 = 0 ∧ t = answer (readValue s off) s) ∨
    (∃ off v, a = .write off 4 v ∧ off % 4 = 0 ∧ performWrite off v s = .next t) := by
  cases a with
  | hardReset => exact .inl ⟨rfl, by simpa [perform, eq_comm] using h⟩
  | read off n =>
    by_cases hc : accessAdmitted off n = true
    · rw [perform, if_pos hc] at h
      simp only [accessAdmitted, Bool.and_eq_true, beq_iff_eq] at hc
      obtain ⟨rfl, h4⟩ := hc
      exact .inr (.inl ⟨off, rfl, h4, by simpa [eq_comm] using h⟩)
    · simp [perform, hc] at h
  | write off n v =>
    by_cases hc : accessAdmitted off n = true
    · rw [perform, if_pos hc] at h
      simp only [accessAdmitted, Bool.and_eq_true, beq_iff_eq] at hc
      obtain ⟨rfl, h4⟩ := hc
      exact .inr (.inr ⟨off, v, rfl, h4, h⟩)
    · simp [perform, hc] at h

/-- Everything one step can do. -/
theorem step_next (h : step s = .next t) :
    paramsAdmitted s.params = true ∧
    ((s.bus = [] ∧ t = s) ∨ (∃ a rest, s.bus = a :: rest ∧ perform a (popBus s) = .next t)) := by
  unfold step serveBus at h
  split at h
  · rename_i hp
    refine ⟨hp, ?_⟩
    split at h
    · rename_i hb
      exact .inl ⟨hb, by simpa [eq_comm] using h⟩
    · rename_i a rest hb
      exact .inr ⟨a, rest, hb, h⟩
  · cases h

end Machine
end Sys2Proof
end

