-- ==== Sys2Proof/Laws/Catalog.lean ====
section
/-! SUPPORT. What a well-formed catalog gives the decoder (10_state R29): every field of a block lies within the payload whose
length was checked, so the field fetch is never asked for a byte outside it (42_decode R160, log 16). -/

namespace Sys2Proof.Machine

open Sys2Proof.Config

variable {s : State}

/-- Every catalog entry of well-formed ROM contents passes R29. -/
theorem catEntry_ok (h : romOk s.params (activeRom s.params) = true) (b : Fin nBlk) :
    blockOk s.params (activeRom s.params) (catEntry s b) = true := by
  simp only [romOk, List.all_eq_true] at h
  exact h _ (by simp [catEntry, Vector.get])

/-- A field that is not IDENT lies within a payload of the expected length (R29 condition 4). -/
theorem field_within_payload (h : romOk s.params (activeRom s.params) = true) {b : Fin nBlk} {f : FieldDesc}
    (hf : f ∈ (catEntry s b).fields) (hk : f.kind ≠ .ident) (hl : s.rx.length = (catEntry s b).explen) :
    f.off + 2 ≤ s.rx.length := by
  have hb := catEntry_ok h b
  simp only [blockOk, Bool.and_eq_true, List.all_eq_true] at hb
  have hfo := hb.1.1.1.2 f hf
  simp only [fieldOk, Bool.and_eq_true] at hfo
  rw [hl]
  revert hfo
  cases hkk : f.kind <;> simp_all

/-- Within the payload the field fetch joins the two bytes that are there (R150). -/
theorem raw_eq_joinBytes {rx : List Byte} {o : Nat} {h l : Byte} (h1 : rx[o]? = some h) (h2 : rx[o + 1]? = some l) :
    raw rx o = joinBytes h l := by
  simp [raw, List.getD_eq_getElem?_getD, h1, h2]

/-- A scheme that is not filled in keeps the length R35 gives it (log 5). -/
theorem unknown_scheme_within (free : List Byte → List Byte) (n : Nat) (rx : List Byte) :
    (applyScheme free n .unknown rx).length ≤ n := by
  simp [applyScheme]

end Sys2Proof.Machine
end

