-- ==== Sys2Proof/Laws/Memory.lean ====
section
/-! SUPPORT. Every operation on the byte buffers keeps them within their bounds (10_state R36, R37). -/

namespace Sys2Proof.Machine

variable {s : State}

theorem memory_wf_iff : Memory.wf s = true ↔
    (s.tx.length = 0 ∨ s.tx.length = 8 ∨ s.tx.length = 11) ∧ s.rx.length ≤ s.params.rxMax := by
  simp [Memory.wf, or_assoc]

theorem memory_wf_reset : Memory.wf State.reset = true := by decide

/-- An update that leaves both buffers and the parameters alone keeps the bounds. -/
theorem memory_wf_congr {t : State} (htx : t.tx = s.tx) (hrx : t.rx = s.rx) (hp : t.params = s.params) :
    Memory.wf t = Memory.wf s := by
  simp [Memory.wf, htx, hrx, hp]

theorem memory_wf_setTx {f : List Byte} (h : Memory.wf s = true)
    (hf : f.length = 0 ∨ f.length = 8 ∨ f.length = 11) : Memory.wf (setTx f s) = true := by
  rw [memory_wf_iff] at h ⊢
  exact ⟨hf, h.2⟩

theorem memory_wf_setRx {bs : List Byte} (h : Memory.wf s = true) (hb : bs.length ≤ s.params.rxMax) :
    Memory.wf (setRx bs s) = true := by
  rw [memory_wf_iff] at h ⊢
  exact ⟨h.1, hb⟩

theorem memory_wf_softReset : Memory.wf (softResetState s) = true := by
  rw [memory_wf_iff]; simp

theorem memory_wf_hardReset : Memory.wf (hardResetState s) = true := by
  rw [memory_wf_iff]; simp

/-- The frames of R85 and R86 have the lengths R36 gives TX. -/
theorem readFrame_length (slave fc : Byte) (start count : Half) :
    (frameOf (readHeader slave fc start count)).length = 8 := rfl

theorem writeFrame_length (slave : Byte) (addr value : Half) :
    (frameOf (writeHeader slave addr value)).length = 11 := rfl

/-- A byte pushed below capacity keeps RX within it (R126). -/
theorem memory_wf_push {b : Byte} (h : Memory.wf s = true) (hr : s.rx.length ≠ s.params.rxMax) :
    Memory.wf (setRx (s.rx ++ [b]) s) = true := by
  refine memory_wf_setRx h ?_
  have := (memory_wf_iff.mp h).2
  simp only [List.length_append, List.length_singleton]
  omega

end Sys2Proof.Machine
end

