-- ==== Sys2Proof/Laws/PerInstr.lean ====
section
/-! SUPPORT. What is shown of every command, one lemma per constructor. -/

namespace Sys2Proof.Laws

/-- The word of a command has the command's opcode in OP, and that opcode is one R82 lists. -/
def EncodedOpcode.Statement (i : Instr) : Prop :=
  opField (encode i) = i.opcode ∧ i.opcode.toNat ∈ legalOpcodes

theorem EncodedOpcode.nop : EncodedOpcode.Statement .nop :=
  ⟨opField_cmdWord _ _ _, by decide⟩

theorem EncodedOpcode.crcInit : EncodedOpcode.Statement .crcInit :=
  ⟨opField_cmdWord _ _ _, by decide⟩

theorem EncodedOpcode.crcByte (b : Byte) : EncodedOpcode.Statement (.crcByte b) :=
  ⟨opField_cmdWord _ _ _, by simp [Instr.opcode, legalOpcodes]⟩

theorem EncodedOpcode.encRead : EncodedOpcode.Statement .encRead :=
  ⟨opField_cmdWord _ _ _, by decide⟩

theorem EncodedOpcode.encWrite : EncodedOpcode.Statement .encWrite :=
  ⟨opField_cmdWord _ _ _, by decide⟩

theorem EncodedOpcode.encBlk (p : Nat) : EncodedOpcode.Statement (.encBlk p) :=
  ⟨opField_cmdWord _ _ _, by simp [Instr.opcode, legalOpcodes]⟩

theorem EncodedOpcode.rxClear : EncodedOpcode.Statement .rxClear :=
  ⟨opField_cmdWord _ _ _, by decide⟩

theorem EncodedOpcode.rxPush (b : Byte) : EncodedOpcode.Statement (.rxPush b) :=
  ⟨opField_cmdWord _ _ _, by simp [Instr.opcode, legalOpcodes]⟩

theorem EncodedOpcode.decBlk (p : Nat) : EncodedOpcode.Statement (.decBlk p) :=
  ⟨opField_cmdWord _ _ _, by simp [Instr.opcode, legalOpcodes]⟩

theorem EncodedOpcode.fldS16 (o : Nat) : EncodedOpcode.Statement (.fldS16 o) :=
  ⟨opField_cmdWord _ _ _, by simp [Instr.opcode, legalOpcodes]⟩

theorem EncodedOpcode.fldU16 (o : Nat) : EncodedOpcode.Statement (.fldU16 o) :=
  ⟨opField_cmdWord _ _ _, by simp [Instr.opcode, legalOpcodes]⟩

theorem EncodedOpcode.fldBool (o : Nat) : EncodedOpcode.Statement (.fldBool o) :=
  ⟨opField_cmdWord _ _ _, by simp [Instr.opcode, legalOpcodes]⟩

theorem EncodedOpcode.fldEnum (t o : Nat) : EncodedOpcode.Statement (.fldEnum t o) :=
  ⟨opField_cmdWord _ _ _, by simp [Instr.opcode, legalOpcodes]⟩

theorem EncodedOpcode.outPop : EncodedOpcode.Statement .outPop :=
  ⟨opField_cmdWord _ _ _, by decide⟩

theorem EncodedOpcode.outClear : EncodedOpcode.Statement .outClear :=
  ⟨opField_cmdWord _ _ _, by decide⟩

theorem EncodedOpcode.clrErr : EncodedOpcode.Statement .clrErr :=
  ⟨opField_cmdWord _ _ _, by decide⟩

theorem EncodedOpcode.softReset : EncodedOpcode.Statement .softReset :=
  ⟨opField_cmdWord _ _ _, by decide⟩

end Sys2Proof.Laws
end

