-- ==== Sys2Proof/Tests/Slice0.lean ====
section
/-! SUPPORT. Tests on fixed values, from the vectors of spec/95_test_vectors.md (V<n>, P<n>) and the encodings of 30_encoding R82,
and for each statement with hypotheses a concrete case that meets them. -/

namespace Sys2Proof.Tests

open Sys2Proof.Machine Sys2Proof.Safety Sys2Proof.Config

/-! ## Helpers -/

/-- The result is a next state with the property. -/
def nextWith (r : Result) (f : State → Bool) : Bool :=
  match r with
  | .next t => f t
  | .fault _ | .refused _ => false

/-- The result is this refusal. -/
def refusedAs (r : Result) (w : Refusal) : Bool :=
  match r with
  | .refused v => v == w
  | .next _ | .fault _ => false

/-- The blocks of the fixture FX without fields (95 section 3). -/
def fxPlain : BlockDesc := { bid := 3, fc := 3, start := 0, count := 1, explen := 2, fields := [] }

/-- The fixture FX of 95 section 3. -/
def fxRom : Rom :=
  { catalog := #v[
      { bid := 0, fc := 4, start := 0x1000, count := 0x0020, explen := 4,
        fields := [{ name := 0x0001, kind := .scaled, off := 0 }, { name := 0x0002, kind := .enum 0, off := 2 }] },
      { bid := 1, fc := 3, start := 0x0100, count := 0x0007, explen := 6,
        fields := [{ name := 0x0010, kind := .uint, off := 0 }, { name := 0x0011, kind := .bool, off := 2 },
                   { name := 0x0012, kind := .enum 1, off := 4 }] },
      { bid := 2, fc := 3, start := 0x0200, count := 0x0003, explen := 6,
        fields := [{ name := 0x0020, kind := .ident, off := 0 }] },
      fxPlain, fxPlain, fxPlain, fxPlain, fxPlain, fxPlain, fxPlain, fxPlain, fxPlain, fxPlain, fxPlain]
    extraTables := [], identVerOff := 0, identMaxLen := 4
    identV8 := .reorder [3, 2, 5, 4], identOther := .reorder [2, 3, 4, 5] }

/-- The state after reset with FX as the parameters. -/
def fx : State := State.resetWith { rxMax := 256, outDepth := 64, rom := some fxRom }

/-- FX with ENABLE, a payload and `n` records in OUT. -/
def fxWith (en : BitVec 14) (rx : List Byte) (n : Nat) : State :=
  { fx with enable := en, rx := rx, out := List.replicate n { kind := 1, name := 1, value := 0 } }

/-- FX with an identity parameter that is broken: one byte where none may be. -/
def fxBroken : State :=
  { fxWith 4 [0, 8, 0x41, 0x42, 0x43, 0x44] 0 with
    params := { rxMax := 256, outDepth := 64, rom := some { fxRom with identMaxLen := 0 } } }

/-- FX with a catalog that is not well formed: explen above P_RXMAX. -/
def fxIll : State := { fxWith 1 [] 0 with params := { rxMax := 3, outDepth := 64, rom := some fxRom } }

/-! ## WellFormed: each check refuses an ill-formed term -/

theorem test_position_256_ill_formed : (Instr.encBlk 256).wf = false ∧ (Instr.decBlk 256).wf = false := by decide
theorem test_offset_65536_ill_formed :
    (Instr.fldS16 65536).wf = false ∧ (Instr.fldU16 65536).wf = false ∧ (Instr.fldBool 65536).wf = false := by decide
theorem test_enum_ill_formed : (Instr.fldEnum 256 0).wf = false ∧ (Instr.fldEnum 0 65536).wf = false := by decide

/-! ## Decode: every constructor from a word written out from R82 -/

theorem test_decode_control : decode 0x00000000 = .ok .nop ∧ decode 0x00000040 = .ok .outPop ∧
    decode 0x00000041 = .ok .outClear ∧ decode 0x00000050 = .ok .clrErr ∧ decode 0x0000005A = .ok .softReset := by decide
theorem test_decode_crc : decode 0x00000001 = .ok .crcInit ∧ decode 0x00000102 = .ok (.crcByte 0x01) := by decide
theorem test_decode_framer : decode 0x00000010 = .ok .encRead ∧ decode 0x00000011 = .ok .encWrite ∧
    decode 0x00000112 = .ok (.encBlk 1) ∧ decode 0x00000020 = .ok .rxClear ∧ decode 0x00006621 = .ok (.rxPush 0x66) := by
  decide
theorem test_decode_decoder : decode 0x00000130 = .ok (.decBlk 1) ∧ decode 0x00020031 = .ok (.fldS16 2) ∧
    decode 0x00020032 = .ok (.fldU16 2) ∧ decode 0xFFFF0033 = .ok (.fldBool 0xFFFF) ∧
    decode 0x00010334 = .ok (.fldEnum 3 1) := by decide
theorem test_decode_illegal : decode 0x00000003 = .error (.illegalOp 3) ∧ decode 0x00000059 = .error (.illegalOp 0x59) := by
  decide
theorem test_decode_ignores : decode 0xABCDEF10 = .ok .encRead ∧ decode 0xABCD0112 = .ok (.encBlk 1) := by decide
theorem test_encode : encode (.fldEnum 3 1) = 0x00010334 ∧ encode (.crcByte 0x31) = 0x00003102 := by decide
theorem test_decodeTableWord : decodeTableWord 8 0x5A = some .softReset ∧ decodeTableWord 32 0x00000334 = some (.fldEnum 3 0) := by
  decide

/-! ## The generator: V1 -/

theorem test_crc_step : crcStep 0xFFFF 0x01 = 0x807E ∧ crcStep 0xFFFF 0x00 = 0x40BF := by decide +kernel
theorem test_crc_check_value : crc16 [0x31, 0x32, 0x33, 0x34, 0x35, 0x36, 0x37, 0x38, 0x39] = 0x4B37 := by decide +kernel
theorem test_crcInit : nextWith (exec .crcInit { fx with crc := 0x1234 }) (fun t => t.crc == 0xFFFF) = true := by decide
theorem test_crcByte : nextWith (exec (.crcByte 0x80) fx) (fun t => t.crc == 0xE0BE && t.err == 0) = true := by decide +kernel

/-! ## The framer: V2 -/

theorem test_encRead : nextWith (exec .encRead { fx with reqSlave := 0x11, reqFc := 3, reqAddr := 0x6B, reqCount := 3 })
    (fun t => t.tx == [0x11, 0x03, 0x00, 0x6B, 0x00, 0x03, 0x76, 0x87] && t.crc == 0x8776) = true := by decide +kernel
theorem test_encWrite : nextWith (exec .encWrite { fx with reqSlave := 1, reqAddr := 1, reqValue := 0x0866 })
    (fun t => t.tx == [0x01, 0x10, 0x00, 0x01, 0x00, 0x01, 0x02, 0x08, 0x66, 0x20, 0x6B] && t.crc == 0x6B20) = true := by
  decide +kernel
theorem test_encBlk : nextWith (exec (.encBlk 1) { fx with enable := 3, reqSlave := 1 })
    (fun t => t.tx == [0x01, 0x03, 0x01, 0x00, 0x00, 0x07, 0x05, 0xF4] && t.crc == 0xF405) = true := by decide +kernel
theorem test_encBlk_badPos : nextWith (exec (.encBlk 2) { fx with enable := 3 })
    (fun t => t.tx == [] && statusWord t == 0x82) = true := by decide +kernel
theorem test_rxClear : nextWith (exec .rxClear (fxWith 0 [1, 2, 3, 4, 5] 0)) (fun t => t.rx == []) = true := by decide
theorem test_rxPush : nextWith (exec (.rxPush 0x66) (fxWith 0 [0x08] 0)) (fun t => t.rx == [0x08, 0x66]) = true := by decide
theorem test_rxPush_full : nextWith (exec (.rxPush 0xAA) (fxWith 0 (List.replicate 256 0) 0))
    (fun t => statusWord t == 0x85 && t.rx.length == 256) = true := by decide +kernel

/-! ## The lookup and the unpacker: V2.18, V3, V4 -/

theorem test_enabled : catlen { fx with enable := 0x2805 } = 4 ∧
    (List.range 5).map (enabledAt { fx with enable := 0x2805 }) = [some 0, some 2, some 11, some 13, none] := by decide
theorem test_fx_wellFormed : romOk fx.params fxRom = true ∧ paramsAdmitted fxIll.params = false := by decide
theorem test_decBlk : nextWith (exec (.decBlk 1) (fxWith 3 [0x00, 0x2A, 0x00, 0x01, 0x00, 0x0E] 0))
    (fun t => t.out == [⟨2, 0x0010, 0x2A⟩, ⟨3, 0x0011, 1⟩, ⟨4, 0x0012, 0x8001000E⟩] && statusWord t == 0) = true := by
  decide +kernel
theorem test_decBlk_identity : nextWith (exec (.decBlk 0) (fxWith 4 [0x00, 0x08, 0x41, 0x42, 0x43, 0x44] 0))
    (fun t => t.out == [⟨5, 0x0020, 0x43444142⟩, ⟨6, 0x0020, 0x00010004⟩]) = true := by decide +kernel
theorem test_fldS16 : nextWith (exec (.fldS16 0) (fxWith 0 [0xFF, 0x38] 0))
    (fun t => t.out == [⟨1, 0xFFFF, 0xFFFFFF38⟩]) = true := by decide +kernel
theorem test_fldS16_range : nextWith (exec (.fldS16 2) (fxWith 0 [0x08, 0x66, 0x00] 0)) (fun t => statusWord t == 0x84) = true := by
  decide +kernel
theorem test_fldU16 : nextWith (exec (.fldU16 2) (fxWith 0 [0x00, 0x00, 0xFF, 0x38] 63))
    (fun t => t.out.length == 64 && t.out.getLast? == some ⟨2, 0xFFFF, 0x0000FF38⟩) = true := by decide +kernel
theorem test_fldU16_noWrap : nextWith (exec (.fldU16 0xFFFF) (fxWith 0 [0, 0] 0)) (fun t => statusWord t == 0x84) = true := by
  decide +kernel
theorem test_fldBool : nextWith (exec (.fldBool 0) (fxWith 0 [0x01, 0x00] 0)) (fun t => t.out == [⟨3, 0xFFFF, 1⟩]) = true := by
  decide +kernel
theorem test_fldBool_full : nextWith (exec (.fldBool 0) (fxWith 0 [0, 0] 64)) (fun t => statusWord t == 0x86) = true := by
  decide +kernel
theorem test_fldEnum : nextWith (exec (.fldEnum 2 0) (fxWith 0 [0x00, 0x07] 0))
    (fun t => t.out == [⟨4, 0xFFFF, 0x80020007⟩]) = true := by decide +kernel
theorem test_fldEnum_badTable : nextWith (exec (.fldEnum 3 9) (fxWith 0 [] 0)) (fun t => statusWord t == 0x88) = true := by
  decide +kernel
theorem test_readings : readingOf fxRom ⟨1, 0, 0xFFFF8000⟩ = some (.scaled (-32768 / 100)) ∧
    readingOf fxRom ⟨4, 0, 0x00000003⟩ = some (.text "Auto") ∧ readingOf fxRom ⟨4, 0, 0x80000005⟩ = some (.text "Unknown") := by
  decide +kernel

/-! ## Control: V5 -/

theorem test_nop : nextWith (exec .nop { fx with err := 3, sticky := true }) (fun t => statusWord t == 0x80) = true := by decide
theorem test_outPop : nextWith (exec .outPop { fx with out := [⟨1, 0x0001, 0x866⟩, ⟨4, 0x0002, 3⟩] })
    (fun t => readReg t .outcnt == 1 && readReg t .outHead0 == 0x00020004 && readReg t .outHead1 == 3) = true := by decide +kernel
theorem test_outPop_empty : nextWith (exec .outPop fx) (fun t => statusWord t == 0x87) = true := by decide
theorem test_outClear : nextWith (exec .outClear (fxWith 0 [] 7)) (fun t => t.out == []) = true := by decide
theorem test_clrErr : nextWith (exec .clrErr { fx with err := 3, sticky := true }) (fun t => statusWord t == 0) = true := by decide
theorem test_softReset : nextWith (exec .softReset { fx with enable := 5, lock := true, reqFc := 0x10, crc := 0, rx := [1] })
    (fun t => cfgWord t == 0x80000005 && catlen t == 2 && t.crc == 0xFFFF && t.reqFc == 0 && t.rx == []) = true := by decide +kernel

/-! ## The register space and steps: V5, P1 to P6 -/

theorem test_step_command : nextWith (step (State.reset.withFetchWord 32 0x000000FF))
    (fun t => statusWord t == 0x81 && t.bus == []) = true := by decide +kernel
theorem test_step_locked : nextWith (step { fx with enable := 5, lock := true, bus := [.write 0x008 4 0] })
    (fun t => cfgWord t == 0x80000005) = true := by decide +kernel
theorem test_step_read : nextWith (step { fx with tx := [1, 2], bus := [.read 0x044 4] }) (fun t => t.answers == [2]) = true := by
  decide +kernel
theorem test_step_narrow : refusedAs (step { fx with bus := [.read 0x004 1] }) .badAccess = true := by decide +kernel

/-! ## Cases that meet the hypotheses of the statements -/

theorem meets_DecodeInvertsEncode : (Instr.fldEnum 255 65535).wf = true := by decide
theorem meets_DecodeSelectsByOpcodeAlone :
    (opField 0xFFFFFF5A).toNat ∈ legalOpcodes ∧ (opField 0x0000005B).toNat ∉ legalOpcodes := by decide
theorem meets_IgnoredFieldsHaveNoEffect :
    (opField 0xABCDEF31 = opField 0xABCD0031 ∧ bField 0xABCDEF31 = bField 0xABCD0031) ∧
    (opField 0xABCDEF12 = opField 0x0000EF12 ∧ aField 0xABCDEF12 = aField 0x0000EF12) ∧
    opField 0xABCDEF00 = opField 0x00000000 := by decide
/-- Every "OP 0x.. is .." clause has a word, its other fields all ones. -/
theorem meets_opcode_clauses : ∀ op ∈ legalOpcodes, (opField (cmdWord (BitVec.ofNat 8 op) 0xFF 0xFFFF)).toNat = op := by decide
theorem meets_EncBlkBuildsFrameOfCatalogEntry :
    catlen { fx with enable := 3 } ≤ 2 ∧ enabledAt { fx with enable := 3 } 1 = some 1 ∧ romOk fx.params (activeRom fx.params) = true := by
  decide
theorem meets_RxPushAppendsOrRaises :
    (fxWith 0 (List.replicate 255 0) 0).rx.length ≠ fx.params.rxMax ∧
    (fxWith 0 (List.replicate 256 0) 0).rx.length = fx.params.rxMax := by decide +kernel
theorem meets_RxLoadCommandsLoadThePayload : (List.replicate 256 (0 : Byte)).length ≤ fx.params.rxMax := by decide +kernel
theorem meets_IllFormedParametersAreRefused :
    fxIll.params.rom = some fxRom ∧ romOk fxIll.params fxRom = false ∧ 0 < catlen fxIll ∧
    romOk fxIll.params (activeRom fxIll.params) = false := by decide
/-- The capacities just outside the ranges of R9, one at a time. -/
theorem meets_IllFormedParameters_ranges : 1 < 2 ∧ 65535 < 65536 ∧ 0 < 1 ∧
    rangesOk { rxMax := 1, outDepth := 64, rom := none } = false ∧ rangesOk { rxMax := 65536, outDepth := 64, rom := none } = false ∧
    rangesOk { rxMax := 256, outDepth := 0, rom := none } = false ∧ rangesOk { rxMax := 256, outDepth := 65536, rom := none } = false ∧
    rangesOk { rxMax := 2, outDepth := 1, rom := none } = true ∧ rangesOk { rxMax := 65535, outDepth := 65535, rom := none } = true := by
  decide
theorem meets_NoStepChangesTheParameters : ∃ t, step { fx with bus := [.write 0x008 4 1] } = .next t := ⟨_, rfl⟩
theorem meets_FieldFetchAndPlainConversions :
    ([0xFF, 0x38] : List Byte)[0]? = some 0xFF ∧ ([0xFF, 0x38] : List Byte)[0 + 1]? = some 0x38 := by decide
theorem meets_EnumRecordCarriesCodeAndLabel :
    255 < 256 ∧ (enumTable fxRom 255).length ≤ (0 : Half).toNat ∧ (enumTable fxRom 0).length ≤ (5 : Half).toNat ∧
    (enumTable fxRom 0)[(4 : Half).toNat]? = some "Service" := by decide
theorem meets_IdentSchemeFollowsVersionField :
    raw [0, 8] fxRom.identVerOff = 8 ∧ fxRom.identV8 = .reorder [3, 2, 5, 4] ∧
    raw [0, 7] fxRom.identVerOff ≠ 8 ∧ fxRom.identOther = .reorder [2, 3, 4, 5] ∧
    { fxRom with identV8 := .unknown }.identV8 = .unknown ∧
    { fxRom with identOther := .unknown }.identOther = .unknown := by decide
theorem meets_IdentRecordsRebuildTheString : ([] : List Byte).length < 65536 ∧ ([1, 2, 3, 4, 5] : List Byte).length < 65536 ∧
    (List.replicate 65535 (0 : Byte)).length < 65536 := ⟨by decide, by decide, by rw [List.length_replicate]; decide⟩
theorem meets_BlockRecordsFollowFieldOrder :
    fxRom.catalog.toList.flatMap (fun b => b.fields.map (fun f => f.kind)) = [.scaled, .enum 0, .uint, .bool, .enum 1, .ident] := by
  decide
theorem meets_DecBlk_badPos : catlen (fxWith 3 [] 0) ≤ 2 := by decide
theorem meets_DecBlk_lenMismatch : enabledAt (fxWith 3 [1, 2, 3] 0) 0 = some 0 ∧ romOk fx.params (activeRom fx.params) = true ∧
    (fxWith 3 [1, 2, 3] 0).rx.length ≠ (catEntry (fxWith 3 [1, 2, 3] 0) 0).explen := by decide
theorem meets_DecBlk_identTooLong : enabledAt fxBroken 0 = some 2 ∧ romOk fxBroken.params (activeRom fxBroken.params) = true ∧
    fxBroken.rx.length = (catEntry fxBroken 2).explen ∧ (∃ f ∈ (catEntry fxBroken 2).fields, f.kind = .ident) ∧
    ¬ IdentFits fxBroken := by decide +kernel
/-- With 62 records in OUT the two of block 0 fit, with 63 they do not. -/
theorem meets_DecBlk_room :
    (fxWith 1 [8, 0x66, 0, 3] 62).out.length + (blockRecs fxRom [8, 0x66, 0, 3] (catEntry fx 0)).length ≤ fx.params.outDepth ∧
    fx.params.outDepth < (fxWith 1 [8, 0x66, 0, 3] 63).out.length + (blockRecs fxRom [8, 0x66, 0, 3] (catEntry fx 0)).length := by
  decide +kernel
theorem meets_DecBlk_emits : ∀ n ∈ [62, 63], enabledAt (fxWith 1 [8, 0x66, 0, 3] n) 0 = some 0 ∧
    romOk fx.params (activeRom fx.params) = true ∧
    (fxWith 1 [8, 0x66, 0, 3] n).rx.length = (catEntry (fxWith 1 [8, 0x66, 0, 3] n) 0).explen ∧
    IdentFits (fxWith 1 [8, 0x66, 0, 3] n) := by decide +kernel
theorem meets_DecodeIntoEmptyFifoNeverOverflows :
    enabledAt (fxWith 7 [0, 8, 0x41, 0x42, 0x43, 0x44] 0) 2 = some 2 ∧
    romOk fx.params (activeRom fx.params) = true ∧
    (fxWith 7 [0, 8, 0x41, 0x42, 0x43, 0x44] 0).rx.length = (catEntry (fxWith 7 [0, 8, 0x41, 0x42, 0x43, 0x44] 0) 2).explen ∧
    (fxWith 7 [0, 8, 0x41, 0x42, 0x43, 0x44] 0).out = [] ∧ IdentFits (fxWith 7 [0, 8, 0x41, 0x42, 0x43, 0x44] 0) := by
  decide +kernel
/-- A block without an IDENT field in a state whose identity string is too long. -/
theorem meets_DecodeIntoEmptyFifo_noIdent :
    enabledAt { fxBroken with enable := 1, rx := [0, 8, 0, 3] } 0 = some 0 ∧
    romOk fxBroken.params (activeRom fxBroken.params) = true ∧ [0, 8, 0, 3].length = (catEntry fxBroken 0).explen ∧
    ¬ (∃ f ∈ (catEntry fxBroken 0).fields, f.kind = .ident) ∧
    ¬ IdentFits { fxBroken with enable := 1, rx := [0, 8, 0, 3] } := by decide +kernel
/-- Of three payload bytes the field at 1 is the last that fits, the one at 2 does not. -/
theorem meets_fld_clauses : (fxWith 0 [8, 0x66, 0] 0).rx.length < 2 + 2 ∧
    (fxWith 0 [8, 0x66, 0] 63).rx[1]? = some 0x66 ∧ (fxWith 0 [8, 0x66, 0] 63).rx[1 + 1]? = some 0 ∧
    (fxWith 0 [8, 0x66, 0] 63).out.length + 1 ≤ fx.params.outDepth ∧
    1 + 2 ≤ (fxWith 0 [8, 0x66, 0] 64).rx.length ∧ fx.params.outDepth < (fxWith 0 [8, 0x66, 0] 64).out.length + 1 := by
  decide +kernel
theorem meets_FldEnumEmitsCodeOfTable : 3 + (activeRom fx.params).extraTables.length ≤ 3 ∧
    2 < 3 + (activeRom fx.params).extraTables.length := by decide
theorem meets_OutPopRemovesFrontOrRaises :
    (fxWith 0 [] 1).out = { kind := 1, name := 1, value := 0 } :: [] ∧ (fxWith 0 [] 0).out = [] := by decide
theorem meets_IllegalOpcode : (opField 0x000000FF).toNat ∉ legalOpcodes := by decide
theorem meets_EveryRaiseChangesOnlyTheFlags : ∃ t, command 0x00000040 fx = .next t ∧ t.err ≠ 0 := ⟨_, rfl, by decide⟩
theorem meets_StickyClearedOnlyByClearOrReset :
    ∃ t, step { fx with err := 3, sticky := true, bus := [.write 0x000 4 0x50] } = .next t ∧ t.sticky = false := ⟨_, rfl, by decide⟩
theorem meets_EachItemChangedOnlyByItsCommands :
    ∃ t, exec (.rxPush 1) fx = .next t ∧ t.rx ≠ fx.rx := ⟨_, rfl, by decide⟩
theorem meets_DecodeIgnoresRequestState :
    SameDecodeView (fxWith 1 [8, 0x66, 0, 3] 0) { fxWith 1 [8, 0x66, 0, 3] 0 with reqSlave := 9, crc := 0, tx := [1] } ∧
    (∃ t, exec (.decBlk 0) (fxWith 1 [8, 0x66, 0, 3] 0) = .next t) := ⟨⟨rfl, rfl, rfl, rfl⟩, _, rfl⟩
theorem meets_RegistersReadAsMapped : ({ fx with tx := List.replicate 11 0 } : State).tx.length ≤ 11 ∧
    (fxWith 0 (List.replicate 256 0) 64).rx.length ≤ 65535 ∧ (fxWith 0 [] 64).out.length ≤ 65535 ∧ fx.out = [] ∧
    (fxWith 0 [] 1).out = { kind := 1, name := 1, value := 0 } :: [] ∧ 10 ≤ 10 ∧ 255 < fx.params.rxMax := by decide +kernel
theorem meets_CfgWriteTakenUnlessLocked : fx.lock = false ∧ { fx with lock := true }.lock = true := by decide
theorem meets_LockedCfgFrozenUntilReset :
    (∃ t, step { fx with lock := true, bus := [.write 0x008 4 0] } = .next t) ∧
    (∀ rest, ([.write 0x008 4 0] : List BusAccess) ≠ .hardReset :: rest) := ⟨⟨_, rfl⟩, by simp⟩
theorem meets_ReadOnlyRegistersIgnoreWrites : 0x038 ∈ [0x004, 0x00C, 0x024, 0x028, 0x02C, 0x030, 0x034, 0x038] ∧
    (∃ i, i ≤ 10 ∧ 0x068 = 0x040 + 4 * i) ∧ (∃ i, i < fx.params.rxMax ∧ 0x7FC = 0x400 + 4 * i) :=
  ⟨by decide, ⟨10, by decide⟩, ⟨255, by decide⟩⟩
theorem meets_UnmappedOffsets : (0x06C ≤ 0x06C ∧ 0x3FC ≤ 0x3FC) ∧ 0x400 + 4 * fx.params.rxMax ≤ 0x800 := by decide
theorem meets_NarrowOrMisalignedAccessRefused : paramsAdmitted fx.params = true ∧
    ¬ (2 = 4 ∧ 0 % 4 = 0) ∧ ¬ (4 = 4 ∧ 2 % 4 = 0) ∧ { fx with bus := [.read 0 2] }.bus = .read 0 2 :: [] ∧
    { fx with bus := [.write 2 4 0] }.bus = .write 2 4 0 :: [] := by decide
theorem meets_StepPerformsTheDecodedCommand : paramsAdmitted fx.params = true ∧
    { fx with bus := [.write 0x000 4 0x102] }.bus = .write 0x000 4 0x102 :: [] ∧ decode 0x102 = .ok (.crcByte 1) ∧
    { fx with bus := [.write 0x000 4 0xFF] }.bus = .write 0x000 4 0xFF :: [] ∧ (opField 0xFF).toNat ∉ legalOpcodes ∧
    { fx with bus := [.write 0x020 4 7] }.bus = .write 0x020 4 7 :: [] ∧ 0x020 % 4 = 0 ∧
    { fx with bus := [.hardReset] }.bus = .hardReset :: [] ∧
    decodeTableWord 32 0x102 = some (.crcByte 1) := by decide
theorem meets_ReadsHaveNoSideEffect : paramsAdmitted fx.params = true ∧ 0x7FC % 4 = 0 ∧
    { fx with bus := [.read 0x7FC 4] }.bus = .read 0x7FC 4 :: [] := by decide
theorem meets_NothingPendingNothingChanges : paramsAdmitted State.reset.params = true ∧ State.reset.bus = [] := by decide
/-- A DEC_BLK of the identity block, its string within the bound. -/
theorem meets_EveryAdmittedAccessIsServed_decode : paramsAdmitted fx.params = true ∧
    enabledAt (fxWith 4 [0, 8, 0x41, 0x42, 0x43, 0x44] 0) 0 = some 2 ∧ decode 0x30 = .ok (.decBlk 0) ∧
    AccessHasMeaning (fxWith 4 [0, 8, 0x41, 0x42, 0x43, 0x44] 0) (.write 0x000 4 0x30) :=
  ⟨by decide +kernel, by decide, by decide, fun _ _ _ _ _ => ⟨fun _ => by decide +kernel, fun _ _ _ => by decide +kernel⟩⟩
/-- A read, a register write, a hardware reset, and a command that reads no catalog, where the identity string is too long. -/
theorem meets_EveryAdmittedAccessIsServed_others : paramsAdmitted fxBroken.params = true ∧ ¬ IdentFits fxBroken ∧
    AccessHasMeaning fxBroken (.read 0x7FC 4) ∧ AccessHasMeaning fxBroken (.write 0x020 4 7) ∧
    AccessHasMeaning fxBroken .hardReset ∧ AccessHasMeaning fxBroken (.write 0x000 4 0x01) := by
  have hd : decode 0x01 = .ok .crcInit := by decide
  refine ⟨by decide +kernel, by decide +kernel, ?_, ?_, ?_, ?_⟩ <;> intro w p b h _ <;> cases h
  rw [hd]
  simp
theorem meets_EveryStepKeepsTheInvariant :
    BlockInv fx ∧ BlockInv { fx with bus := [.write 0x000 4 0x10] } ∧
    (∃ t, step { fx with bus := [.write 0x000 4 0x10] } = .next t ∧ t.tx.length = 8) :=
  ⟨⟨by decide, by decide, by decide, by decide, by decide⟩, ⟨by decide, by decide, by decide, by decide, by decide⟩, _, rfl, by decide +kernel⟩

end Sys2Proof.Tests
end

section
/-! Scope (00_scope R9, R14): what one step does before it looks at an access, and where ill-formed parameters are refused. -/

namespace Sys2Proof.Machine

open Sys2Proof.Config

/-! ## When parameters are admitted -/

/-- A capacity lies outside the range R9 gives it exactly when the range check fails. -/
theorem rangesOk_eq_false_iff {p : Params} : rangesOk p = false ↔
    p.rxMax < 2 ∨ 65535 < p.rxMax ∨ p.outDepth < 1 ∨ 65535 < p.outDepth := by
  simp only [rangesOk, Bool.and_eq_false_iff, decide_eq_false_iff_not, not_le, or_assoc]

theorem paramsAdmitted_of_rangesOk_false {p : Params} (h : rangesOk p = false) : paramsAdmitted p = false := by
  rw [paramsAdmitted, h, Bool.false_and]

/-- ROM contents that are filled in are judged by R29. -/
theorem paramsAdmitted_of_rom_some {p : Params} {r : Rom} (hr : p.rom = some r) :
    paramsAdmitted p = (rangesOk p && romOk p r) := by
  simp only [paramsAdmitted, hr]

/-! ## What a step does before it serves an access -/

theorem step_of_not_admitted {s : State} (h : paramsAdmitted s.params = false) :
    step s = .refused .illFormedConfig := by
  simp [step, serveBus, h]

theorem step_of_bus_nil {s : State} (hp : paramsAdmitted s.params = true) (hb : s.bus = []) : step s = .next s := by
  simp [step, serveBus, hp, hb]

/-! ## Where a catalog command refuses -/

/-- ENC_BLK begins with the position lookup (R124). -/
theorem exec_encBlk (p : Nat) (s : State) : exec (.encBlk p) s = withBlock p s (fun d => frameBlock d s) := rfl

/-- DEC_BLK begins with the position lookup (R160). -/
theorem exec_decBlk (p : Nat) (s : State) : exec (.decBlk p) s = withBlock p s (fun d => decodeBlock d s) := rfl

/-- A position with a block is not looked up in ROM contents that fail R29, whatever the command goes on with (log 7). -/
theorem withBlock_of_not_romOk {s : State} {p : Nat} (k : BlockDesc → Result) (hp : p < catlen s)
    (hr : romOk s.params (activeRom s.params) = false) : withBlock p s k = .refused .illFormedConfig := by
  cases hb : enabledAt s p with
  | none => exact absurd (enabledAt_eq_none_iff.mp hb) (Nat.not_le.mpr hp)
  | some b => simp [withBlock, hb, hr]

end Sys2Proof.Machine

open Sys2Proof.Machine

/-- Settles O19: the first two clauses are parameters that are not admitted, the third is the shared position lookup. -/
theorem illFormedParametersAreRefused : Obligations.IllFormedParametersAreRefused := by
  refine ⟨fun s hrange => ?ranges, fun s r hrom hbad => ?filledIn, fun s p hp hbad => ?inUse⟩
  case ranges =>
    exact step_of_not_admitted (paramsAdmitted_of_rangesOk_false (rangesOk_eq_false_iff.mpr hrange))
  case filledIn =>
    have hadm : paramsAdmitted s.params = false := by
      rw [paramsAdmitted_of_rom_some hrom, hbad, Bool.and_false]
    exact step_of_not_admitted hadm
  case inUse =>
    rw [exec_encBlk, exec_decBlk]
    exact ⟨withBlock_of_not_romOk _ hp hbad, withBlock_of_not_romOk _ hp hbad⟩

/-- Settles O54: a step under admitted parameters turns on the list of pending accesses alone. -/
theorem nothingPendingNothingChanges : Obligations.NothingPendingNothingChanges :=
  fun _ hadm hbus => step_of_bus_nil hadm hbus
end

section
/-! What one command can change (10_state R24, R26, R32, R36 to R39): every command that answers a next state has one of nine
effects, and a predicate on states that the effects of an access keep is kept by every step. -/

namespace Sys2Proof.Machine

open Sys2Proof.Config Sys2Proof.Safety

/-! ## A frame checks itself -/

/-- Shifts that drop only zero bits never reach the XOR of R100. -/
theorem crcShifts_eq_ushiftRight (n : Nat) (c : Half) (h : ∀ i < n, c.getLsbD i = false) :
    crcShifts n c = c >>> n := by
  induction n generalizing c with
  | zero => simp [crcShifts]
  | succ n ih =>
    have hshift : crcShift c = c >>> 1 := by rw [crcShift, h 0 (Nat.succ_pos n), if_neg Bool.false_ne_true]
    have hrest : ∀ i < n, (c >>> 1).getLsbD i = false := fun i hi => by
      simpa [BitVec.getLsbD_ushiftRight] using h (1 + i) (by omega)
    rw [crcShifts, hshift, ih _ hrest, ← BitVec.shiftRight_add, Nat.add_comm]

/-- The low byte of the running CRC cancels itself: its high byte is what is left. -/
theorem crcStep_loByte (c : Half) : crcStep c (loByte c) = (hiByte c).setWidth 16 := by
  have hlow : ∀ i < 8, (c ^^^ (loByte c).setWidth 16).getLsbD i = false := fun i hi => by
    simp [loByte, hi, show i < 16 by omega]
  rw [crcStep, crcShifts_eq_ushiftRight 8 _ hlow]
  ext i hi
  have hhigh : c.getLsbD (8 + i) = true → i < 8 := fun hbit => by
    have := BitVec.lt_of_getLsbD hbit
    omega
  simpa [loByte, hiByte, BitVec.getLsbD_extractLsb'] using hhigh

/-- A running CRC of one byte is cleared by that byte. -/
theorem crcStep_setWidth_self (b : Byte) : crcStep (b.setWidth 16) b = 0 := by
  rw [crcStep, BitVec.xor_self, crcShifts_eq_ushiftRight 8 _ (by simp)]
  simp

/-- R104(a) for a frame: the CRC over a header and its own CRC, low byte first, is 0. -/
theorem crc16_frameOf (h : List Byte) : crc16 (frameOf h) = 0 := by
  have hfold : crc16 (frameOf h) = crcStep (crcStep (crc16 h) (loByte (crc16 h))) (hiByte (crc16 h)) := by
    simp [crc16, frameOf, List.foldl_append]
  rw [hfold, crcStep_loByte, crcStep_setWidth_self]

@[simp] theorem length_frameOf (h : List Byte) : (frameOf h).length = h.length + 2 := by
  simp [frameOf]

/-! ## The records the decoder makes have legal kinds -/

theorem kindLegal_of_kind_eq {r : Record} (k : Byte) (hr : r.kind = k) (hk : 1 ≤ k.toNat ∧ k.toNat ≤ 6) : kindLegal r := by
  rwa [kindLegal, hr]

theorem convScaled_kindLegal (name r : Half) : kindLegal (convScaled name r) := kindLegal_of_kind_eq 1 rfl (by decide)

theorem convUint_kindLegal (name r : Half) : kindLegal (convUint name r) := kindLegal_of_kind_eq 2 rfl (by decide)

theorem convBool_kindLegal (name r : Half) : kindLegal (convBool name r) := kindLegal_of_kind_eq 3 rfl (by decide)

theorem convEnum_kindLegal (rom : Rom) (name : Half) (t : Nat) (r : Half) : kindLegal (convEnum rom name t r) :=
  kindLegal_of_kind_eq 4 rfl (by decide)

theorem identRecs_kindLegal {name : Half} {v8 : Bool} {str : List Byte} :
    ∀ r ∈ identRecs name v8 str, kindLegal r := by
  intro r hr
  rcases List.mem_append.mp hr with hchunk | hend
  · obtain ⟨k, -, rfl⟩ := List.mem_map.mp hchunk
    exact kindLegal_of_kind_eq 5 rfl (by decide)
  · obtain rfl := List.mem_singleton.mp hend
    exact kindLegal_of_kind_eq 6 rfl (by decide)

theorem fieldRecs_kindLegal {rom : Rom} {rx : List Byte} {f : FieldDesc} :
    ∀ r ∈ fieldRecs rom rx f, kindLegal r := by
  intro r hr
  unfold fieldRecs at hr
  split at hr
  · exact List.mem_singleton.mp hr ▸ convScaled_kindLegal _ _
  · exact List.mem_singleton.mp hr ▸ convUint_kindLegal _ _
  · exact List.mem_singleton.mp hr ▸ convBool_kindLegal _ _
  · exact List.mem_singleton.mp hr ▸ convEnum_kindLegal _ _ _ _
  · exact identRecs_kindLegal r hr

theorem blockRecs_kindLegal {rom : Rom} {rx : List Byte} {d : BlockDesc} :
    ∀ r ∈ blockRecs rom rx d, kindLegal r := by
  intro r hr
  obtain ⟨f, -, hf⟩ := List.mem_flatMap.mp hr
  exact fieldRecs_kindLegal r hf

/-! ## The effect of a command -/

/-- The commands that write TX (R36). -/
abbrev IsEncoder (i : Instr) : Prop := i = .encRead ∨ i = .encWrite ∨ ∃ p, i = .encBlk p

/-- The commands of the CRC generator (R32). -/
abbrev IsCrcCommand (i : Instr) : Prop := i = .crcInit ∨ ∃ b, i = .crcByte b

/-- The commands of the payload intake (R37). -/
abbrev IsIntake (i : Instr) : Prop := i = .rxClear ∨ ∃ b, i = .rxPush b

/-- The commands that emit records (R38). -/
abbrev IsDecoder (i : Instr) : Prop :=
  (∃ p, i = .decBlk p) ∨ (∃ o, i = .fldS16 o) ∨ (∃ o, i = .fldU16 o) ∨ (∃ o, i = .fldBool o) ∨ ∃ n o, i = .fldEnum n o

/-- What the command `i` can leave of the state `s`. -/
inductive CommandEffect (i : Instr) (s : State) : State → Prop
  | raised (c : ErrCode) : CommandEffect i s (flagsOnRaise c s)
  | onlyCompleted (hi : i = .nop) : CommandEffect i s (flagsOnComplete s)
  | flagsCleared (hi : i = .clrErr) : CommandEffect i s (flagsCleared s)
  | crcSet (hi : IsCrcCommand i) (c : Half) : CommandEffect i s (flagsOnComplete (setCrc c s))
  | frameSent (hi : IsEncoder i) (h : List Byte) (hlen : h.length = 6 ∨ h.length = 9) :
      CommandEffect i s (flagsOnComplete (setCrc (crc16 h) (setTx (frameOf h) s)))
  | payloadSet (hi : IsIntake i) (bs : List Byte)
      (hfit : s.rx.length ≤ s.params.rxMax → bs.length ≤ s.params.rxMax) :
      CommandEffect i s (flagsOnComplete (setRx bs s))
  | recordsEmitted (hi : IsDecoder i) (recs : List Record) (hroom : s.out.length + recs.length ≤ s.params.outDepth)
      (hlegal : ∀ r ∈ recs, kindLegal r) : CommandEffect i s (flagsOnComplete (setOut (s.out ++ recs) s))
  | recordsDropped (hi : i = .outPop ∨ i = .outClear) (rs : List Record) (hsub : rs.Sublist s.out) :
      CommandEffect i s (flagsOnComplete (setOut rs s))
  | softReset (hi : i = .softReset) : CommandEffect i s (softResetState s)

section Effects

variable {i : Instr} {s t : State}

theorem outLacks_eq_false_iff {n : Nat} : outLacks n s = false ↔ s.out.length + n ≤ s.params.outDepth := by
  simp [outLacks]

/-- Emitting records is one effect of a decoder command or another (R159). -/
theorem emitAll_effect (hi : IsDecoder i) {recs : List Record} (hlegal : ∀ r ∈ recs, kindLegal r)
    (h : emitAll recs s = .next t) : CommandEffect i s t := by
  obtain ⟨-, rfl⟩ | ⟨hroom, rfl⟩ := emitAll_next h
  · exact .raised _
  · exact .recordsEmitted hi recs (outLacks_eq_false_iff.mp hroom) hlegal

theorem emitField_effect (hi : IsDecoder i) {conv : Half → Record} (hlegal : ∀ r, kindLegal (conv r)) {o : Nat}
    (h : emitField conv o s = .next t) : CommandEffect i s t := by
  obtain ⟨-, rfl⟩ | ⟨-, -, rfl⟩ | ⟨-, hroom, rfl⟩ := emitField_next h
  · exact .raised _
  · exact .raised _
  · exact .recordsEmitted hi _ (outLacks_eq_false_iff.mp hroom) (by simpa using hlegal _)

theorem sendFrame_effect (hi : IsEncoder i) {hd : List Byte} (hlen : hd.length = 6 ∨ hd.length = 9)
    (h : sendFrame hd s = .next t) : CommandEffect i s t := by
  obtain rfl := sendFrame_next h
  exact .frameSent hi hd hlen

theorem encBlk_effect {p : Nat} (h : exec (.encBlk p) s = .next t) : CommandEffect (.encBlk p) s t := by
  rw [exec_encBlk] at h
  obtain ⟨-, rfl⟩ | ⟨b, -, -, hb⟩ := withBlock_next h
  · exact .raised _
  · exact sendFrame_effect (.inr (.inr ⟨p, rfl⟩)) (.inl rfl) hb

theorem decBlk_effect {p : Nat} (h : exec (.decBlk p) s = .next t) : CommandEffect (.decBlk p) s t := by
  rw [exec_decBlk] at h
  obtain ⟨-, rfl⟩ | ⟨b, -, -, hb⟩ := withBlock_next h
  · exact .raised _
  obtain ⟨-, rfl⟩ | ⟨-, hemit⟩ := decodeBlock_next hb
  · exact .raised _
  · exact emitAll_effect (.inl ⟨p, rfl⟩) blockRecs_kindLegal hemit

theorem rxPush_effect {b : Byte} (h : exec (.rxPush b) s = .next t) : CommandEffect (.rxPush b) s t := by
  change execRxPush b s = _ at h
  unfold execRxPush at h
  split at h
  case isTrue =>
    obtain rfl := raise_eq_next.mp h
    exact .raised _
  case isFalse hne =>
    obtain rfl := complete_eq_next.mp h
    refine .payloadSet (.inr ⟨b, rfl⟩) _ fun hle => ?_
    simp only [List.length_append, List.length_singleton]
    omega

theorem fldEnum_effect {n o : Nat} (h : exec (.fldEnum n o) s = .next t) : CommandEffect (.fldEnum n o) s t := by
  change execFldEnum n o s = _ at h
  unfold execFldEnum at h
  split at h
  case isTrue =>
    obtain rfl := raise_eq_next.mp h
    exact .raised _
  case isFalse =>
    exact emitField_effect (.inr (.inr (.inr (.inr ⟨n, o, rfl⟩)))) (convEnum_kindLegal _ _ _) h

theorem outPop_effect (h : exec .outPop s = .next t) : CommandEffect .outPop s t := by
  change execOutPop s = _ at h
  unfold execOutPop at h
  split at h
  case h_1 =>
    obtain rfl := raise_eq_next.mp h
    exact .raised _
  case h_2 r rest hout =>
    obtain rfl := complete_eq_next.mp h
    exact .recordsDropped (.inl rfl) rest (hout ▸ List.sublist_cons_self r rest)

/-- Every command that answers a next state has one of the nine effects. -/
theorem exec_effect (h : exec i s = .next t) : CommandEffect i s t := by
  cases i with
  | nop => obtain rfl := complete_eq_next.mp h; exact .onlyCompleted rfl
  | crcInit => obtain rfl := complete_eq_next.mp h; exact .crcSet (.inl rfl) _
  | crcByte b => obtain rfl := complete_eq_next.mp h; exact .crcSet (.inr ⟨b, rfl⟩) _
  | encRead => exact sendFrame_effect (.inl rfl) (.inl rfl) h
  | encWrite => exact sendFrame_effect (.inr (.inl rfl)) (.inr rfl) h
  | encBlk p => exact encBlk_effect h
  | rxClear => obtain rfl := complete_eq_next.mp h; exact .payloadSet (.inl rfl) [] (by simp)
  | rxPush b => exact rxPush_effect h
  | decBlk p => exact decBlk_effect h
  | fldS16 o => exact emitField_effect (.inr (.inl ⟨o, rfl⟩)) (convScaled_kindLegal _) h
  | fldU16 o => exact emitField_effect (.inr (.inr (.inl ⟨o, rfl⟩))) (convUint_kindLegal _) h
  | fldBool o => exact emitField_effect (.inr (.inr (.inr (.inl ⟨o, rfl⟩)))) (convBool_kindLegal _) h
  | fldEnum n o => exact fldEnum_effect h
  | outPop => exact outPop_effect h
  | outClear => obtain rfl := complete_eq_next.mp h; exact .recordsDropped (.inr rfl) [] (List.nil_sublist _)
  | clrErr => cases h; exact .flagsCleared rfl
  | softReset => cases h; exact .softReset rfl

/-- No command touches CFG, the parameters, the pending accesses or the answers (R24, R27). -/
theorem CommandEffect.hostSide_eq (h : CommandEffect i s t) :
    t.enable = s.enable ∧ t.lock = s.lock ∧ t.params = s.params ∧ t.bus = s.bus ∧ t.answers = s.answers := by
  cases h <;> exact ⟨rfl, rfl, rfl, rfl, rfl⟩

theorem CommandEffect.of_tx_ne (h : CommandEffect i s t) (htx : t.tx ≠ s.tx) : IsEncoder i ∨ i = .softReset := by
  cases h with
  | frameSent hi => exact .inl hi
  | softReset hi => exact .inr hi
  | _ => exact absurd rfl htx

theorem CommandEffect.of_crc_ne (h : CommandEffect i s t) (hcrc : t.crc ≠ s.crc) :
    IsCrcCommand i ∨ IsEncoder i ∨ i = .softReset := by
  cases h with
  | crcSet hi => exact .inl hi
  | frameSent hi => exact .inr (.inl hi)
  | softReset hi => exact .inr (.inr hi)
  | _ => exact absurd rfl hcrc

theorem CommandEffect.of_rx_ne (h : CommandEffect i s t) (hrx : t.rx ≠ s.rx) : IsIntake i ∨ i = .softReset := by
  cases h with
  | payloadSet hi => exact .inl hi
  | softReset hi => exact .inr hi
  | _ => exact absurd rfl hrx

theorem CommandEffect.of_out_ne (h : CommandEffect i s t) (hout : t.out ≠ s.out) :
    IsDecoder i ∨ (i = .outPop ∨ i = .outClear) ∨ i = .softReset := by
  cases h with
  | recordsEmitted hi => exact .inl hi
  | recordsDropped hi => exact .inr (.inl hi)
  | softReset hi => exact .inr (.inr hi)
  | _ => exact absurd rfl hout

/-- No command but SOFT_RESET touches a request register (R26, R195). -/
theorem CommandEffect.request_eq (h : CommandEffect i s t) (hi : i ≠ .softReset) :
    t.reqSlave = s.reqSlave ∧ t.reqFc = s.reqFc ∧ t.reqAddr = s.reqAddr ∧ t.reqCount = s.reqCount ∧
    t.reqValue = s.reqValue := by
  cases h with
  | softReset h => exact absurd h hi
  | _ => exact ⟨rfl, rfl, rfl, rfl, rfl⟩

end Effects

/-! ## Writes to the register space -/

theorem writeCfg_of_locked {s : State} (v : Word) (h : s.lock = true) : writeCfg v s = s := by
  simp [writeCfg, h]

theorem writeCfg_of_unlocked {s : State} (v : Word) (h : s.lock = false) :
    writeCfg v s = { s with enable := v.extractLsb' 0 14, lock := v.getLsbD 31 } := by
  simp [writeCfg, h]

/-- A register write leaves alone what the invariant speaks of, and the parameters (R24, R26, R44). -/
theorem writeReg_frame (v : Word) (s : State) (r : Reg) :
    (writeReg v s r).err = s.err ∧ (writeReg v s r).sticky = s.sticky ∧ (writeReg v s r).tx = s.tx ∧
    (writeReg v s r).rx = s.rx ∧ (writeReg v s r).out = s.out ∧ (writeReg v s r).params = s.params := by
  cases r with
  | cfg =>
    cases hl : s.lock with
    | true => simp [writeReg, writeCfg_of_locked v hl]
    | false => simp [writeReg, writeCfg_of_unlocked v hl]
  | _ => exact ⟨rfl, rfl, rfl, rfl, rfl, rfl⟩

/-- Once LOCK is 1 no register write changes CFG (R24). -/
theorem writeReg_cfg_of_locked {s : State} (v : Word) (r : Reg) (h : s.lock = true) :
    (writeReg v s r).lock = true ∧ (writeReg v s r).enable = s.enable := by
  cases r with
  | cfg => simp [writeReg, writeCfg_of_locked v h, h]
  | _ => exact ⟨h, rfl⟩

/-- A write to CMD is a command (R22). -/
theorem performWrite_cmd (v : Word) (s : State) : performWrite 0x000 v s = command v s := rfl

theorem performWrite_of_regAt {s : State} {off : Nat} {r : Reg} (v : Word)
    (h : regAt s.params.rxMax off = some r) (hr : r ≠ .cmd) : performWrite off v s = .next (writeReg v s r) := by
  unfold performWrite
  rw [h]
  cases r with
  | cmd => exact absurd rfl hr
  | _ => rfl

/-- Everything an aligned write can do: a command, a register write, or nothing (R22, R63). -/
theorem performWrite_next {off : Nat} {v : Word} {s t : State} (h : performWrite off v s = .next t) :
    command v s = .next t ∨ (∃ r, t = writeReg v s r) ∨ t = s := by
  unfold performWrite at h
  split at h
  · exact .inl h
  · cases h; exact .inr (.inl ⟨_, rfl⟩)
  · cases h; exact .inr (.inr rfl)

/-! ## What every access but the reset keeps, every step keeps -/

/-- The predicate is kept by each thing a step can do, the hardware reset left aside. -/
structure KeptByAccesses (P : State → Prop) : Prop where
  popBus : ∀ {s}, P s → P (popBus s)
  answer : ∀ {s} v, P s → P (answer v s)
  writeReg : ∀ {s} v r, P s → P (writeReg v s r)
  raise : ∀ {s} c, P s → P (flagsOnRaise c s)
  effect : ∀ {i s t}, CommandEffect i s t → P s → P t

theorem KeptByAccesses.command {P : State → Prop} (hP : KeptByAccesses P) {w : Word} {s t : State}
    (h : command w s = .next t) (hs : P s) : P t := by
  obtain ⟨i, -, hi⟩ | ⟨op, -, rfl⟩ := command_next h
  · exact hP.effect (exec_effect hi) hs
  · exact hP.raise _ hs

theorem KeptByAccesses.performWrite {P : State → Prop} (hP : KeptByAccesses P) {off : Nat} {v : Word} {s t : State}
    (h : performWrite off v s = .next t) (hs : P s) : P t := by
  obtain hc | ⟨r, rfl⟩ | rfl := performWrite_next h
  · exact hP.command hc hs
  · exact hP.writeReg v r hs
  · exact hs

/-- The one case split over a step; a hardware reset is left to the caller. -/
theorem KeptByAccesses.step {P : State → Prop} (hP : KeptByAccesses P) {s t : State} (h : step s = .next t) (hs : P s)
    (hreset : ∀ rest, s.bus = .hardReset :: rest → P (hardResetState (Machine.popBus s))) : P t := by
  obtain ⟨-, ⟨-, rfl⟩ | ⟨a, rest, hbus, ha⟩⟩ := step_next h
  · exact hs
  have hpop := hP.popBus hs
  obtain ⟨rfl, rfl⟩ | ⟨off, rfl, -, rfl⟩ | ⟨off, v, rfl, -, hw⟩ := perform_next ha
  · exact hreset rest hbus
  · exact hP.answer _ hpop
  · exact hP.performWrite hw hpop

/-! ## The invariant -/

section Invariant

variable {s t : State}

/-- The invariant speaks of the flags, the three buffers and the capacities alone. -/
theorem blockInv_of_frame (h : BlockInv s) (herr : t.err = s.err) (hsticky : t.sticky = s.sticky) (htx : t.tx = s.tx)
    (hrx : t.rx = s.rx) (hout : t.out = s.out) (hparams : t.params = s.params) : BlockInv t where
  errLegal := by simpa only [ErrLegal, herr] using h.errLegal
  stickyNotesErr := by simpa only [StickyNotesErr, herr, hsticky] using h.stickyNotesErr
  frameChecked := by simpa only [FrameChecked, htx] using h.frameChecked
  buffersBounded := by simpa only [BuffersBounded, hrx, hout, hparams] using h.buffersBounded
  recordsLegal := by simpa only [RecordsLegal, hout] using h.recordsLegal

/-- Where ERR is 0 the invariant asks nothing of the flags. -/
theorem blockInv_of_err_zero (herr : t.err = 0) (hframe : FrameChecked t) (hbuf : BuffersBounded t)
    (hrec : RecordsLegal t) : BlockInv t where
  errLegal := by simp [ErrLegal, herr]
  stickyNotesErr := fun h => absurd herr h
  frameChecked := hframe
  buffersBounded := hbuf
  recordsLegal := hrec

/-- Empty buffers and no error meet the invariant, so every reset does (R45, R195, R240). -/
theorem blockInv_of_empty (herr : t.err = 0) (htx : t.tx = []) (hrx : t.rx = []) (hout : t.out = []) : BlockInv t :=
  blockInv_of_err_zero herr (.inl htx) (by simp [BuffersBounded, hrx, hout]) (by simp [RecordsLegal, hout])

theorem blockInv_flagsOnRaise (c : ErrCode) (h : BlockInv s) : BlockInv (flagsOnRaise c s) where
  errLegal := (code_legal c).2
  stickyNotesErr := fun _ => rfl
  frameChecked := h.frameChecked
  buffersBounded := h.buffersBounded
  recordsLegal := h.recordsLegal

/-- What an encoder leaves in TX is a whole frame that checks itself (R36, R104(a)). -/
theorem frameChecked_of_tx_eq_frameOf {hd : List Byte} (htx : t.tx = frameOf hd) (hlen : hd.length = 6 ∨ hd.length = 9) :
    FrameChecked t := by
  refine .inr ⟨?_, htx ▸ crc16_frameOf hd⟩
  rw [htx, length_frameOf]
  omega

theorem blockInv_of_effect {i : Instr} (heff : CommandEffect i s t) (h : BlockInv s) : BlockInv t := by
  obtain ⟨hrx, hout⟩ := h.buffersBounded
  cases heff with
  | raised c => exact blockInv_flagsOnRaise c h
  | onlyCompleted => exact blockInv_of_err_zero rfl h.frameChecked ⟨hrx, hout⟩ h.recordsLegal
  | flagsCleared => exact blockInv_of_err_zero rfl h.frameChecked ⟨hrx, hout⟩ h.recordsLegal
  | crcSet => exact blockInv_of_err_zero rfl h.frameChecked ⟨hrx, hout⟩ h.recordsLegal
  | frameSent _ hd hlen =>
    exact blockInv_of_err_zero rfl (frameChecked_of_tx_eq_frameOf rfl hlen) ⟨hrx, hout⟩ h.recordsLegal
  | payloadSet _ bs hfit => exact blockInv_of_err_zero rfl h.frameChecked ⟨hfit hrx, hout⟩ h.recordsLegal
  | recordsEmitted _ recs hroom hlegal =>
    refine blockInv_of_err_zero rfl h.frameChecked ⟨hrx, by simpa using hroom⟩ fun r hr => ?_
    rcases List.mem_append.mp hr with hold | hnew
    · exact h.recordsLegal r hold
    · exact hlegal r hnew
  | recordsDropped _ rs hsub =>
    exact blockInv_of_err_zero rfl h.frameChecked ⟨hrx, hsub.length_le.trans hout⟩
      fun r hr => h.recordsLegal r (hsub.subset hr)
  | softReset => exact blockInv_of_empty rfl rfl rfl rfl

theorem blockInv_keptByAccesses : KeptByAccesses BlockInv where
  popBus h := blockInv_of_frame h rfl rfl rfl rfl rfl rfl
  answer _ h := blockInv_of_frame h rfl rfl rfl rfl rfl rfl
  writeReg {s} v r h := by
    obtain ⟨herr, hsticky, htx, hrx, hout, hparams⟩ := writeReg_frame v s r
    exact blockInv_of_frame h herr hsticky htx hrx hout hparams
  raise c h := blockInv_flagsOnRaise c h
  effect := blockInv_of_effect

end Invariant

/-- The parameters of a run stay what they are (R243). -/
theorem params_keptByAccesses (p : Params) : KeptByAccesses (fun u => u.params = p) where
  popBus h := h
  answer _ h := h
  writeReg {s} v r h := by
    obtain ⟨-, -, -, -, -, hparams⟩ := writeReg_frame v s r
    exact hparams.trans h
  raise _ h := h
  effect heff h := by
    obtain ⟨-, -, hparams, -, -⟩ := heff.hostSide_eq
    exact hparams.trans h

/-- CFG is frozen from the moment LOCK is 1 (R24). -/
theorem lockedCfg_keptByAccesses (en : BitVec 14) : KeptByAccesses (fun u => u.lock = true ∧ u.enable = en) where
  popBus h := h
  answer _ h := h
  writeReg {s} v r h := by
    obtain ⟨hlock, hen⟩ := h
    obtain ⟨hlock', hen'⟩ := writeReg_cfg_of_locked v r hlock
    exact ⟨hlock', hen'.trans hen⟩
  raise _ h := h
  effect heff h := by
    obtain ⟨hen, hlock, -⟩ := heff.hostSide_eq
    rwa [hen, hlock]

end Sys2Proof.Machine

open Sys2Proof.Machine

/-- Settles O58: each thing a step can do keeps the invariant, and the hardware reset restores it. -/
theorem everyStepKeepsTheInvariant : Obligations.EveryStepKeepsTheInvariant :=
  fun _ _ hinv hstep =>
    blockInv_keptByAccesses.step hstep hinv fun _ _ => blockInv_of_empty rfl rfl rfl rfl

/-- Settles O22: the hardware reset keeps the parameters too. -/
theorem noStepChangesTheParameters : Obligations.NoStepChangesTheParameters :=
  fun s _ hstep => (params_keptByAccesses s.params).step hstep rfl fun _ _ => rfl

/-- Settles O47: the hardware reset, the only thing that unlocks CFG, is excluded. -/
theorem lockedCfgFrozenUntilReset : Obligations.LockedCfgFrozenUntilReset :=
  fun s _ hstep hlock hreset =>
    (lockedCfg_keptByAccesses s.enable).step hstep ⟨hlock, rfl⟩ fun rest hbus => absurd hbus (hreset rest)

/-- Settles O43: of the nine effects, each item is touched by those whose commands the rules name. -/
theorem eachItemChangedOnlyByItsCommands : Obligations.EachItemChangedOnlyByItsCommands := by
  intro i s t h
  have heff := exec_effect h
  refine ⟨fun htx => ?tx, fun hcrc => ?crc, fun hrx => ?rx, fun hout => ?out, heff.request_eq, heff.hostSide_eq⟩
  case tx => simpa only [IsEncoder, or_assoc] using heff.of_tx_ne htx
  case crc => simpa only [IsCrcCommand, IsEncoder, or_assoc] using heff.of_crc_ne hcrc
  case rx => simpa only [IsIntake, or_assoc] using heff.of_rx_ne hrx
  case out => simpa only [IsDecoder, or_assoc] using heff.of_out_ne hout

/-- Settles O59: reset empties every buffer and clears the flags. -/
theorem resetHasTheInvariant : Obligations.ResetHasTheInvariant :=
  ⟨blockInv_of_empty rfl rfl rfl rfl, fun _ => blockInv_of_empty rfl rfl rfl rfl⟩
end

section
/-! The ROM space (10_state R25, R27 to R31, R33): what the check of a catalog says of each block, which block a position names, and how
many records a block makes. -/

namespace Sys2Proof.Machine

open Sys2Proof.Config Sys2Proof.Safety

/-! ## The catalog check -/

/-- R29 conditions 4, 5 and 7, one by one. -/
theorem fieldOk_iff {r : Rom} {b : BlockDesc} {f : FieldDesc} : fieldOk r b f = true ↔
    f.name ≠ 0xFFFF ∧ (f.kind ≠ .ident → f.off + 2 ≤ b.explen) ∧
    (∀ t, f.kind = .enum t → t < 3 + r.extraTables.length) := by
  have hn : 3 + r.extraTables.length = nEnum r := Nat.add_comm _ _
  cases hk : f.kind <;> simp [fieldOk, hk, hn]

theorem fieldNrec_eq_ite (r : Rom) (f : FieldDesc) :
    fieldNrec r f = if f.kind = .ident then (r.identMaxLen + 3) / 4 + 1 else 1 := by
  cases hk : f.kind <;> simp [fieldNrec, hk]

theorem isIdent_iff {f : FieldDesc} : isIdent f = true ↔ f.kind = .ident := by
  simp [isIdent]

/-- R29 conditions 2 to 8, in the order of the check. -/
theorem blockOk_iff {p : Params} {r : Rom} {b : BlockDesc} : blockOk p r b = true ↔
    (b.fc = 3 ∨ b.fc = 4) ∧ b.explen ≤ p.rxMax ∧ (∀ f ∈ b.fields, fieldOk r b f = true) ∧
    (b.fields.filter isIdent).length ≤ 1 ∧ (∀ f ∈ b.fields, f.kind = .ident → r.identVerOff + 2 ≤ b.explen) ∧
    nrec r b ≤ p.outDepth := by
  have hver : (∀ f ∈ b.fields, f.kind = .ident → r.identVerOff + 2 ≤ b.explen) ↔
      (b.fields.any isIdent = false ∨ r.identVerOff + 2 ≤ b.explen) := by
    simp only [List.any_eq_false, isIdent_iff]
    constructor
    · intro h
      by_cases hv : r.identVerOff + 2 ≤ b.explen
      · exact .inr hv
      · exact .inl fun f hf hk => hv (h f hf hk)
    · rintro (h | h) f hf hk
      · exact absurd hk (h f hf)
      · exact h
  rw [hver]
  simp [blockOk, and_assoc]

theorem romOk_iff {p : Params} {r : Rom} : romOk p r = true ↔ ∀ b ∈ r.catalog.toList, blockOk p r b = true :=
  List.all_eq_true

/-! ## The position lookup -/

/-- A number that passes a test stands, among those that do, behind the smaller ones. -/
theorem getElem?_filter_range_length (f : Nat → Bool) {n b : Nat} (hb : b < n) (hf : f b = true) :
    ((List.range n).filter f)[((List.range b).filter f).length]? = some b := by
  obtain ⟨k, rfl⟩ := Nat.exists_eq_add_of_lt hb
  rw [Nat.add_assoc, List.range_add, List.range_succ_eq_map, List.filter_append]
  simp [hf]

/-- The `p`-th of the numbers below `n` that pass a test is the one that passes with `p` passing numbers below it. -/
theorem getElem?_filter_range_eq_some_iff (f : Nat → Bool) (n p b : Nat) :
    ((List.range n).filter f)[p]? = some b ↔ b < n ∧ f b = true ∧ ((List.range b).filter f).length = p := by
  constructor
  · intro h
    obtain ⟨hmem, hf⟩ := List.mem_filter.mp (List.mem_of_getElem? h)
    have hb := List.mem_range.mp hmem
    have hsame := h.trans (getElem?_filter_range_length f hb hf).symm
    have hp : p < ((List.range n).filter f).length := (List.getElem?_eq_some_iff.mp h).1
    exact ⟨hb, hf, ((List.getElem?_inj hp (List.nodup_range.filter f)).mp hsame).symm⟩
  · rintro ⟨hb, hf, rfl⟩
    exact getElem?_filter_range_length f hb hf

theorem map_val_enabledBlocks (en : BitVec 14) :
    (enabledBlocks en).map Fin.val = (List.range 14).filter (fun b => en.getLsbD b) := by
  rw [enabledBlocks, ← List.map_coe_finRange_eq_range, List.filter_map]
  rfl

theorem catlen_eq_setBitsBelow (s : State) : catlen s = setBitsBelow s.enable 14 := by
  rw [catlen, setBitsBelow, ← map_val_enabledBlocks, List.length_map]

theorem enabledAt_eq_some_iff {s : State} {p : Nat} {b : Fin nBlk} :
    enabledAt s p = some b ↔ s.enable.getLsbD b.val = true ∧ setBitsBelow s.enable b.val = p := by
  have hmap : enabledAt s p = some b ↔ ((enabledBlocks s.enable).map Fin.val)[p]? = some b.val := by
    rw [enabledAt, List.getElem?_map, Option.map_eq_some_iff]
    simp [Fin.val_inj]
  rw [hmap, map_val_enabledBlocks, getElem?_filter_range_eq_some_iff]
  exact and_iff_right b.isLt

/-! ## The number of records -/

theorem length_identRecs (name : Half) (v8 : Bool) (str : List Byte) :
    (identRecs name v8 str).length = (str.length + 3) / 4 + 1 := by
  simp [identRecs, chunkRecs]

/-- A field makes at most the records R30 counts for it. -/
theorem length_fieldRecs_le {rom : Rom} {rx : List Byte} {f : FieldDesc}
    (h : f.kind = .ident → identBroken rom rx = false) : (fieldRecs rom rx f).length ≤ fieldNrec rom f := by
  cases hk : f.kind with
  | ident =>
    have hfit : (identString rom rx).length ≤ rom.identMaxLen := by simpa [identBroken] using h hk
    simp only [fieldRecs, fieldNrec, hk, length_identRecs]
    omega
  | _ => simp [fieldRecs, fieldNrec, hk]

theorem length_blockRecs_le_nrec {rom : Rom} {rx : List Byte} {d : BlockDesc}
    (h : (∃ f ∈ d.fields, f.kind = .ident) → identBroken rom rx = false) :
    (blockRecs rom rx d).length ≤ nrec rom d := by
  rw [blockRecs, List.length_flatMap, nrec]
  exact List.sum_le_sum fun f hf => length_fieldRecs_le fun hk => h ⟨f, hf, hk⟩

/-! ## DEC_BLK up to its records -/

theorem withBlock_of_enabledAt {s : State} {p : Nat} {b : Fin nBlk} (k : BlockDesc → Result)
    (hb : enabledAt s p = some b) (hr : romOk s.params (activeRom s.params) = true) :
    withBlock p s k = k (catEntry s b) := by
  simp [withBlock, hb, hr]

/-- A payload of the expected length whose identity, where the block asks for one, is within its bound: the records are emitted. -/
theorem decodeBlock_eq_emitAll {s : State} {d : BlockDesc} (hlen : s.rx.length = d.explen)
    (hident : (∃ f ∈ d.fields, f.kind = .ident) → IdentFits s) :
    decodeBlock d s = emitAll (blockRecs (activeRom s.params) s.rx d) s := by
  have hmeaning : (d.fields.any isIdent && identBroken (activeRom s.params) s.rx) = false := by
    cases hany : d.fields.any isIdent with
    | false => rfl
    | true =>
      obtain ⟨f, hf, hk⟩ := List.any_eq_true.mp hany
      exact hident ⟨f, hf, isIdent_iff.mp hk⟩
  simp [decodeBlock, hlen, hmeaning]

theorem emitAll_of_room {s : State} {recs : List Record} (h : s.out.length + recs.length ≤ s.params.outDepth) :
    emitAll recs s = complete (setOut (s.out ++ recs) s) := by
  simp [emitAll, outLacks_eq_false_iff.mpr h]

end Sys2Proof.Machine

open Sys2Proof.Machine

/-- Settles O18: the check tests the conditions in another order than R29 lists them. -/
theorem catalogWellFormedAsListed : Obligations.CatalogWellFormedAsListed := by
  intro p r
  rw [romOk_iff]
  refine forall₂_congr fun b _ => ?_
  have hnrec : nrec r b =
      (b.fields.map (fun f => if f.kind = .ident then (r.identMaxLen + 3) / 4 + 1 else 1)).sum := by
    rw [nrec, funext (fieldNrec_eq_ite r)]
  have hfields : (∀ f ∈ b.fields, fieldOk r b f = true) ↔
      (∀ f ∈ b.fields, f.name ≠ 0xFFFF) ∧ (∀ f ∈ b.fields, f.kind ≠ .ident → f.off + 2 ≤ b.explen) ∧
      (∀ f ∈ b.fields, ∀ t, f.kind = .enum t → t < 3 + r.extraTables.length) := by
    simp only [fieldOk_iff, forall_and]
  rw [blockOk_iff, hfields, hnrec]
  constructor
  · rintro ⟨hfc, hexplen, ⟨hname, hoff, htable⟩, hone, hver, hsum⟩
    exact ⟨hfc, hexplen, hoff, htable, hone, hver, hname, hsum⟩
  · rintro ⟨hfc, hexplen, hoff, htable, hone, hver, hname, hsum⟩
    exact ⟨hfc, hexplen, ⟨hname, hoff, htable⟩, hone, hver, hsum⟩

/-- Settles O20: the enabled blocks are the set bits of ENABLE in ascending order. -/
theorem enabledIsTheNthSetBit : Obligations.EnabledIsTheNthSetBit := by
  refine ⟨fun _ _ _ => enabledAt_eq_some_iff, fun s p => ?_, catlen_eq_setBitsBelow⟩
  rw [← Option.ne_none_iff_exists', ne_eq, enabledAt_eq_none_iff, Nat.not_le]

/-- Settles O30: R29's last condition bounds nrec(b), and so the records, by P_OUTDEPTH. -/
theorem decodeIntoEmptyFifoNeverOverflows : Obligations.DecodeIntoEmptyFifoNeverOverflows := by
  intro p b s hb hrom hlen hout hident
  have hcount := length_blockRecs_le_nrec hident
  obtain ⟨-, -, -, -, -, hnrec⟩ := blockOk_iff.mp (catEntry_ok hrom b)
  have hroom : s.out.length + (blockRecs (activeRom s.params) s.rx (catEntry s b)).length ≤ s.params.outDepth := by
    rw [hout, List.length_nil, Nat.zero_add]
    exact hcount.trans hnrec
  refine ⟨hcount, ?_⟩
  rw [exec_decBlk, withBlock_of_enabledAt _ hb hrom, decodeBlock_eq_emitAll hlen hident, emitAll_of_room hroom, hout]
  rfl

/-- Settles O21: the labels that are OPEN stand between the two the spec gives. -/
theorem namedTablesHaveTheirLabels : Obligations.NamedTablesHaveTheirLabels := by
  intro r
  simp [enumTable, modeLabels, controlLabels, userLabels]
end

section
/-! The register space and one step (10_state R22 to R26, R32, R36 to R40, R44, R45; 20_memory R64, R65): which register an offset
names, what a write to it does, and what a step does with the access it serves. -/

namespace Sys2Proof.Machine

open Sys2Proof.Config Sys2Proof.Safety

/-! ## Which register an offset names -/

/-- No two registers below the byte windows share an offset. -/
theorem find_plainRegs_offset : ∀ r ∈ plainRegs, plainRegs.find? (fun r' => r'.offset == r.offset) = some r := by
  decide

theorem offset_lt_of_mem_plainRegs : ∀ r ∈ plainRegs, r.offset < 0x040 := by
  decide

theorem find_plainRegs_of_ge {off : Nat} (h : 0x040 ≤ off) : plainRegs.find? (fun r => r.offset == off) = none := by
  refine List.find?_eq_none.mpr fun r hr => ?_
  have := offset_lt_of_mem_plainRegs r hr
  simp only [beq_iff_eq]
  omega

theorem regAt_plain (rxMax : Nat) {r : Reg} (hr : r ∈ plainRegs) : regAt rxMax r.offset = some r := by
  simp only [regAt, find_plainRegs_offset r hr]

theorem regAt_txb (rxMax : Nat) {i : Nat} (hi : i ≤ 10) : regAt rxMax (0x040 + 4 * i) = some (.txb i) := by
  have hwin : 0x040 ≤ 0x040 + 4 * i ∧ 0x040 + 4 * i < 0x040 + 4 * 11 := by omega
  simp only [regAt, find_plainRegs_of_ge hwin.1, if_pos hwin]
  rw [if_neg (by omega), show (0x040 + 4 * i - 0x040) / 4 = i by omega]

theorem regAt_rxb {rxMax i : Nat} (hi : i < rxMax) : regAt rxMax (0x400 + 4 * i) = some (.rxb i) := by
  have hwin : 0x400 ≤ 0x400 + 4 * i ∧ 0x400 + 4 * i < 0x400 + 4 * rxMax := by omega
  simp only [regAt, find_plainRegs_of_ge (off := 0x400 + 4 * i) (by omega), if_pos hwin]
  rw [if_neg (by omega), if_neg (by omega), show (0x400 + 4 * i - 0x400) / 4 = i by omega]

/-! ## Reads -/

section Reads

variable (s : State)

theorem readValue_of_regAt {off : Nat} {r : Reg} (h : regAt s.params.rxMax off = some r) :
    readValue s off = readReg s r := by
  simp only [readValue, h]

theorem readValue_plain {r : Reg} (hr : r ∈ plainRegs) : readValue s r.offset = readReg s r :=
  readValue_of_regAt s (regAt_plain _ hr)

theorem readReg_catlen : readReg s .catlen = BitVec.ofNat 32 (catlen s) :=
  BitVec.setWidth_ofNat_of_le_of_lt (by decide) (Nat.lt_of_le_of_lt (catlen_le (s := s)) (by decide))

theorem readReg_txlen (h : s.tx.length ≤ 11) : readReg s .txlen = BitVec.ofNat 32 s.tx.length :=
  BitVec.setWidth_ofNat_of_le_of_lt (by decide) (by omega)

theorem readReg_rxlen (h : s.rx.length ≤ 65535) : readReg s .rxlen = BitVec.ofNat 32 s.rx.length :=
  BitVec.setWidth_ofNat_of_le_of_lt (by decide) (by omega)

theorem readReg_outcnt (h : s.out.length ≤ 65535) : readReg s .outcnt = BitVec.ofNat 32 s.out.length :=
  BitVec.setWidth_ofNat_of_le_of_lt (by decide) (by omega)

/-- With OUT empty both head registers read 0 (R40). -/
theorem readReg_outHead_nil (h : s.out = []) : readReg s .outHead0 = 0 ∧ readReg s .outHead1 = 0 := by
  simp [readReg, outHead0Word, outHead1Word, h]

/-- The head registers show the front record (R40). -/
theorem readReg_outHead_cons {r : Record} {rest : List Record} (h : s.out = r :: rest) :
    readReg s .outHead0 = (r.name.setWidth 32 <<< 16) ||| r.kind.setWidth 32 ∧ readReg s .outHead1 = r.value := by
  simp [readReg, outHead0Word, outHead1Word, h]

theorem readReg_txb_nil (h : s.tx = []) (i : Nat) : readReg s (.txb i) = 0 := by
  simp [readReg, h]

theorem readReg_rxb_nil (h : s.rx = []) (i : Nat) : readReg s (.rxb i) = 0 := by
  simp [readReg, h]

end Reads

/-! ## Writes -/

section Writes

variable (s : State) (v : Word)

theorem performWrite_plain {r : Reg} (hr : r ∈ plainRegs) (hcmd : r ≠ .cmd) :
    performWrite r.offset v s = .next (writeReg v s r) :=
  performWrite_of_regAt v (regAt_plain _ hr) hcmd

/-- The registers below the byte windows that a host write does not change (R44). -/
def readOnlyRegs : List Reg := [.status, .catlen, .crc, .txlen, .rxlen, .outcnt, .outHead0, .outHead1]

theorem readOnlyRegs_plain : ∀ r ∈ readOnlyRegs, r ∈ plainRegs ∧ r ≠ .cmd := by
  decide

theorem writeReg_readOnly : ∀ r ∈ readOnlyRegs, writeReg v s r = s := by
  simp [readOnlyRegs, writeReg]

end Writes

/-! ## What a step does with the access it serves -/

section Served

variable {s : State} {rest : List BusAccess}

theorem popBus_of_bus_cons {a : BusAccess} (hb : s.bus = a :: rest) : popBus s = { s with bus := rest } := by
  simp [popBus, hb]

theorem step_of_bus_cons {a : BusAccess} (hp : paramsAdmitted s.params = true) (hb : s.bus = a :: rest) :
    step s = perform a { s with bus := rest } := by
  rw [← popBus_of_bus_cons hb]
  simp [step, serveBus, hp, hb]

theorem step_of_aligned_write {off : Nat} {v : Word} (hp : paramsAdmitted s.params = true) (ho : off % 4 = 0)
    (hb : s.bus = .write off 4 v :: rest) : step s = performWrite off v { s with bus := rest } := by
  rw [step_of_bus_cons hp hb]
  simp [perform, accessAdmitted, ho]

theorem step_of_cmd_write {w : Word} (hp : paramsAdmitted s.params = true) (hb : s.bus = .write 0x000 4 w :: rest) :
    step s = command w { s with bus := rest } :=
  step_of_aligned_write hp rfl hb

theorem command_of_decode_ok {w : Word} {i : Instr} (h : decode w = .ok i) (s : State) : command w s = exec i s := by
  simp only [command, h]

/-- A word whose OP is not in R82's column is refused by its opcode (R84). -/
theorem decode_of_not_legal {w : Word} (h : (opField w).toNat ∉ legalOpcodes) :
    decode w = .error (.illegalOp (opField w)) := by
  unfold decode
  split <;> simp_all [legalOpcodes]

theorem command_of_not_legal {w : Word} (h : (opField w).toNat ∉ legalOpcodes) (s : State) :
    command w s = .next { s with err := 1, sticky := true } := by
  simp only [command, decode_of_not_legal h]
  rfl

theorem decode_of_decodeTableWord {nbits w : Nat} {i : Instr} (h : decodeTableWord nbits w = some i) :
    decode (BitVec.ofNat 32 (w % 2 ^ nbits)) = .ok i := by
  unfold decodeTableWord at h
  cases hd : decode (BitVec.ofNat 32 (w % 2 ^ nbits)) with
  | ok j => simpa [hd, Except.toOption] using h
  | error e => simp [hd, Except.toOption] at h

end Served

end Sys2Proof.Machine

open Sys2Proof Sys2Proof.Machine

/-- Settles O45, register by register through the offset of each. -/
theorem registersReadAsMapped : Obligations.RegistersReadAsMapped := by
  intro s
  have hread : ∀ r ∈ plainRegs, readValue s r.offset = readReg s r := fun _ => readValue_plain s
  have hhead0 := hread .outHead0 (by decide)
  have hhead1 := hread .outHead1 (by decide)
  refine ⟨hread .cmd (by decide), hread .status (by decide), hread .cfg (by decide),
    (hread .catlen (by decide)).trans (readReg_catlen s),
    hread .reqSlave (by decide), hread .reqFc (by decide), hread .reqAddr (by decide), hread .reqCount (by decide),
    hread .reqValue (by decide), hread .crc (by decide),
    fun h => (hread .txlen (by decide)).trans (readReg_txlen s h),
    fun h => (hread .rxlen (by decide)).trans (readReg_rxlen s h),
    fun h => (hread .outcnt (by decide)).trans (readReg_outcnt s h),
    fun h => ?empty, fun r rest h => ?front, fun i hi => ?txb, fun i hi => ?rxb⟩
  case empty =>
    obtain ⟨h0, h1⟩ := readReg_outHead_nil s h
    exact ⟨hhead0.trans h0, hhead1.trans h1⟩
  case front =>
    obtain ⟨h0, h1⟩ := readReg_outHead_cons s h
    exact ⟨hhead0.trans h0, hhead1.trans h1⟩
  case txb => exact readValue_of_regAt s (regAt_txb _ hi)
  case rxb => exact readValue_of_regAt s (regAt_rxb hi)

/-- Settles O46: CFG's write is `writeCfg`, which looks at LOCK alone. -/
theorem cfgWriteTakenUnlessLocked : Obligations.CfgWriteTakenUnlessLocked := by
  have hcfg : ∀ (s : State) (v : Word), performWrite 0x008 v s = .next (writeCfg v s) := fun s v =>
    performWrite_plain s v (r := .cfg) (by decide) (by decide)
  refine ⟨fun s v hlock => ?_, fun s v hlock => ?_⟩
  · rw [hcfg, writeCfg_of_unlocked v hlock]
  · rw [hcfg, writeCfg_of_locked v hlock]

/-- Settles O48: the five request registers are below the byte windows and none is CMD. -/
theorem requestRegistersKeepBitsThatFit : Obligations.RequestRegistersKeepBitsThatFit := by
  intro s v
  have hwrite : ∀ r ∈ plainRegs, r ≠ .cmd → performWrite r.offset v s = .next (writeReg v s r) :=
    fun _ => performWrite_plain s v
  have hread : ∀ r ∈ plainRegs, readValue s r.offset = readReg s r := fun _ => readValue_plain s
  exact ⟨hwrite .reqSlave (by decide) (by decide), hwrite .reqFc (by decide) (by decide),
    hwrite .reqAddr (by decide) (by decide), hwrite .reqCount (by decide) (by decide),
    hwrite .reqValue (by decide) (by decide),
    hread .reqSlave (by decide), hread .reqFc (by decide), hread .reqAddr (by decide), hread .reqCount (by decide),
    hread .reqValue (by decide)⟩

/-- Settles O49: the listed offsets are those of the read-only registers, the two others are the byte windows. -/
theorem readOnlyRegistersIgnoreWrites : Obligations.ReadOnlyRegistersIgnoreWrites := by
  rintro s v off (hplain | ⟨i, hi, rfl⟩ | ⟨i, hi, rfl⟩)
  · obtain ⟨r, hr, rfl⟩ : ∃ r ∈ readOnlyRegs, r.offset = off := List.mem_map.mp hplain
    obtain ⟨hmem, hcmd⟩ := readOnlyRegs_plain r hr
    rw [performWrite_plain s v hmem hcmd, writeReg_readOnly s v r hr]
  · exact performWrite_of_regAt v (regAt_txb _ hi) (by simp)
  · exact performWrite_of_regAt v (regAt_rxb hi) (by simp)

/-- Settles O52: every clause serves the access at the front of the list. -/
theorem stepPerformsTheDecodedCommand : Obligations.StepPerformsTheDecodedCommand := by
  refine ⟨fun s w i rest hp hb hi => ?legal, fun s w rest hp hb hop => ?illegal,
    fun s off v rest hp ho hb => step_of_aligned_write hp ho hb, fun s w => performWrite_cmd w s,
    fun s rest hp hb => step_of_bus_cons hp hb, fun s nbits w i hp hi => ?placed⟩
  case legal => rw [step_of_cmd_write hp hb, command_of_decode_ok hi]
  case illegal => rw [step_of_cmd_write hp hb, command_of_not_legal hop]
  case placed =>
    have hstep : step (s.withFetchWord nbits w) = command (BitVec.ofNat 32 (w % 2 ^ nbits)) s :=
      step_of_cmd_write (s := s.withFetchWord nbits w) hp (commandFirst_bus s _)
    rw [hstep, command_of_decode_ok (decode_of_decodeTableWord hi)]

/-- Settles O56: with ENABLE 0 no block is enabled, and with the buffers empty every view of them reads 0. -/
theorem resetValuesAsListed : Obligations.ResetValuesAsListed := by
  refine ⟨fun p => ?_, Config.defaultParams, rfl⟩
  have hcatlen : catlen (State.resetWith p) = 0 := by
    rw [catlen_eq_setBitsBelow]
    simp [State.resetWith, Safety.setBitsBelow]
  obtain ⟨hhead0, hhead1⟩ := readReg_outHead_nil (State.resetWith p) rfl
  exact ⟨rfl, rfl, rfl, rfl, rfl, rfl, rfl, rfl, rfl, rfl, rfl, rfl, rfl, rfl, hcatlen, hhead0, hhead1,
    readReg_txb_nil _ rfl, readReg_rxb_nil _ rfl⟩
end

section
/-! Host accesses (20_memory R61, R63, R64, R65): which offsets name no register, which accesses are refused, and which are served
by one step. -/

namespace Sys2Proof.Machine

open Sys2Proof.Config Sys2Proof.Safety

/-! ## The offset names the register -/

/-- The register found at an offset is the one R22 puts there. -/
theorem offset_of_regAt {rxMax off : Nat} {r : Reg} (h : regAt rxMax off = some r) : r.offset = off := by
  unfold regAt at h
  split at h
  case h_1 r' hfind =>
    obtain rfl := Option.some.inj h
    have hoff := List.find?_some hfind
    simpa using hoff
  case h_2 =>
    split_ifs at h with halign htx hrx
    all_goals
      obtain rfl := Option.some.inj h
      rw [Reg.offset]
      omega

/-- No register lies at 0x03C, between the byte windows, or past the second one (R22, R63). -/
theorem regAt_of_unmapped {rxMax off : Nat}
    (h : off = 0x03C ∨ (0x06C ≤ off ∧ off ≤ 0x3FC) ∨ 0x400 + 4 * rxMax ≤ off) : regAt rxMax off = none := by
  have hplain : plainRegs.find? (fun r => r.offset == off) = none := by
    obtain rfl | hge : off = 0x03C ∨ 0x040 ≤ off := by omega
    · decide
    · exact find_plainRegs_of_ge hge
  have htx : ¬ (0x040 ≤ off ∧ off < 0x040 + 4 * 11) := by omega
  have hrx : ¬ (0x400 ≤ off ∧ off < 0x400 + 4 * rxMax) := by omega
  simp only [regAt, hplain, if_neg htx, if_neg hrx, ite_self]

theorem readValue_of_regAt_none {s : State} {off : Nat} (h : regAt s.params.rxMax off = none) : readValue s off = 0 := by
  simp only [readValue, h]

theorem performWrite_of_regAt_none {s : State} {off : Nat} (v : Word) (h : regAt s.params.rxMax off = none) :
    performWrite off v s = .next s := by
  simp only [performWrite, h]

/-! ## The accesses R61 admits -/

theorem accessAdmitted_iff {off bytes : Nat} : accessAdmitted off bytes = true ↔ bytes = 4 ∧ off % 4 = 0 := by
  simp [accessAdmitted]

theorem perform_read_of_aligned {off : Nat} (h : off % 4 = 0) (s : State) :
    perform (.read off 4) s = .next (answer (readValue s off) s) :=
  if_pos (accessAdmitted_iff.mpr ⟨rfl, h⟩)

theorem perform_write_of_aligned {off : Nat} (h : off % 4 = 0) (v : Word) (s : State) :
    perform (.write off 4 v) s = performWrite off v s :=
  if_pos (accessAdmitted_iff.mpr ⟨rfl, h⟩)

theorem perform_read_of_not_admitted {off bytes : Nat} (h : ¬ (bytes = 4 ∧ off % 4 = 0)) (s : State) :
    perform (.read off bytes) s = .refused .badAccess :=
  if_neg (mt accessAdmitted_iff.mp h)

theorem perform_write_of_not_admitted {off bytes : Nat} (h : ¬ (bytes = 4 ∧ off % 4 = 0)) (v : Word) (s : State) :
    perform (.write off bytes v) s = .refused .badAccess :=
  if_neg (mt accessAdmitted_iff.mp h)

/-! ## No access changes what is still pending -/

theorem writeReg_bus (v : Word) (s : State) (r : Reg) : (writeReg v s r).bus = s.bus := by
  cases r with
  | cfg =>
    cases hl : s.lock with
    | true => rw [writeReg, writeCfg_of_locked v hl]
    | false => rw [writeReg, writeCfg_of_unlocked v hl]
  | _ => rfl

theorem command_bus {w : Word} {s t : State} (h : command w s = .next t) : t.bus = s.bus := by
  obtain ⟨i, -, hi⟩ | ⟨op, -, rfl⟩ := command_next h
  · obtain ⟨-, -, -, hbus, -⟩ := (exec_effect hi).hostSide_eq
    exact hbus
  · exact flagsOnRaise_bus s _

theorem performWrite_bus {off : Nat} {v : Word} {s t : State} (h : performWrite off v s = .next t) : t.bus = s.bus := by
  obtain hc | ⟨r, rfl⟩ | rfl := performWrite_next h
  · exact command_bus hc
  · exact writeReg_bus v s r
  · rfl

/-- Only the step takes an access off the list; serving it does not touch the list, and neither does a hardware reset (log 9). -/
theorem perform_bus {a : BusAccess} {s t : State} (h : perform a s = .next t) : t.bus = s.bus := by
  obtain ⟨-, rfl⟩ | ⟨off, -, -, rfl⟩ | ⟨off, v, -, -, hw⟩ := perform_next h
  · exact hardResetState_bus s
  · exact answer_bus s _
  · exact performWrite_bus hw

/-! ## Which commands answer a next state -/

/-- The result is a next state: neither a fault nor a refusal. -/
abbrev AnswersNext (r : Result) : Prop := ∃ t, r = .next t

/-- What `AccessHasMeaning` asks of a CMD write, said of the command: ENC_BLK and DEC_BLK of a block need a well-formed catalog
(R29), and a DEC_BLK that reaches an IDENT field an identity string within its bound (R156). -/
def CommandHasMeaning (i : Instr) (s : State) : Prop :=
  ∀ (p : Nat) (b : Fin nBlk), enabledAt s p = some b →
    (i = .encBlk p ∨ i = .decBlk p → romOk s.params (activeRom s.params) = true) ∧
    (i = .decBlk p → s.rx.length = (catEntry s b).explen → (∃ f ∈ (catEntry s b).fields, f.kind = .ident) → IdentFits s)

theorem commandHasMeaning_of_access {w : Word} {i : Instr} {s : State} (h : AccessHasMeaning s (.write 0x000 4 w))
    (hi : decode w = .ok i) : CommandHasMeaning i s := by
  intro p b hb
  obtain ⟨hrom, hident⟩ := h w p b rfl hb
  rw [hi] at hrom hident
  exact ⟨fun hc => hrom (hc.imp (congrArg _) (congrArg _)), fun hc => hident (congrArg _ hc)⟩

section Answers

variable {s : State}

theorem answersNext_complete (s : State) : AnswersNext (complete s) := ⟨_, rfl⟩

theorem answersNext_raise (c : ErrCode) (s : State) : AnswersNext (raise c s) := ⟨_, rfl⟩

theorem answersNext_ite {c : Prop} [Decidable c] {a b : Result} (ha : AnswersNext a) (hb : AnswersNext b) :
    AnswersNext (if c then a else b) := by
  split
  · exact ha
  · exact hb

theorem answersNext_emitAll (recs : List Record) (s : State) : AnswersNext (emitAll recs s) :=
  answersNext_ite (answersNext_raise _ _) (answersNext_complete _)

theorem answersNext_emitField (conv : Half → Record) (o : Nat) (s : State) : AnswersNext (emitField conv o s) :=
  answersNext_ite (answersNext_raise _ _) (answersNext_emitAll _ _)

/-- The position lookup answers where the catalog of a position with a block is well formed and the rest of the command answers. -/
theorem answersNext_withBlock {p : Nat} {k : BlockDesc → Result}
    (h : ∀ b, enabledAt s p = some b → romOk s.params (activeRom s.params) = true ∧ AnswersNext (k (catEntry s b))) :
    AnswersNext (withBlock p s k) := by
  cases hb : enabledAt s p with
  | none =>
    have hbad : withBlock p s k = raise .badPos s := by simp only [withBlock, hb]
    exact hbad ▸ answersNext_raise _ _
  | some b =>
    obtain ⟨hrom, hk⟩ := h b hb
    rwa [withBlock_of_enabledAt k hb hrom]

/-- An identity string too long for its bound is the one reason why the decode of a block is refused (R156). -/
theorem answersNext_decodeBlock {d : BlockDesc}
    (h : s.rx.length = d.explen → (∃ f ∈ d.fields, f.kind = .ident) → IdentFits s) : AnswersNext (decodeBlock d s) := by
  by_cases hlen : s.rx.length = d.explen
  · rw [decodeBlock_eq_emitAll hlen (h hlen)]
    exact answersNext_emitAll _ _
  · rw [decodeBlock, if_pos hlen]
    exact answersNext_raise _ _

theorem answersNext_outPop (s : State) : AnswersNext (exec .outPop s) := by
  change AnswersNext (execOutPop s)
  unfold execOutPop
  split
  · exact answersNext_raise _ _
  · exact answersNext_complete _

/-- Every command that has a meaning answers a next state; no command faults. -/
theorem answersNext_exec {i : Instr} (h : CommandHasMeaning i s) : AnswersNext (exec i s) := by
  cases i with
  | encBlk p =>
    rw [exec_encBlk]
    refine answersNext_withBlock fun b hb => ?_
    obtain ⟨hrom, -⟩ := h p b hb
    exact ⟨hrom (.inl rfl), answersNext_complete _⟩
  | decBlk p =>
    rw [exec_decBlk]
    refine answersNext_withBlock fun b hb => ?_
    obtain ⟨hrom, hident⟩ := h p b hb
    exact ⟨hrom (.inr rfl), answersNext_decodeBlock (hident rfl)⟩
  | rxPush b => exact answersNext_ite (answersNext_raise _ _) (answersNext_complete _)
  | fldS16 o => exact answersNext_emitField _ _ _
  | fldU16 o => exact answersNext_emitField _ _ _
  | fldBool o => exact answersNext_emitField _ _ _
  | fldEnum n o => exact answersNext_ite (answersNext_raise _ _) (answersNext_emitField _ _ _)
  | outPop => exact answersNext_outPop s
  | nop | crcInit | crcByte b | encRead | encWrite | rxClear | outClear | clrErr | softReset => exact ⟨_, rfl⟩

/-! ## Which accesses answer a next state -/

theorem answersNext_command {w : Word} (h : AccessHasMeaning s (.write 0x000 4 w)) : AnswersNext (command w s) := by
  unfold command
  split
  case h_1 i hi => exact answersNext_exec (commandHasMeaning_of_access h hi)
  case h_2 => exact answersNext_raise _ _

/-- Of the writes only a command, which is the write at CMD, can fail to answer (R22, R63). -/
theorem answersNext_performWrite {off : Nat} {v : Word} (h : AccessHasMeaning s (.write off 4 v)) :
    AnswersNext (performWrite off v s) := by
  cases hr : regAt s.params.rxMax off with
  | none => exact ⟨_, performWrite_of_regAt_none v hr⟩
  | some r =>
    by_cases hcmd : r = .cmd
    · subst hcmd
      obtain rfl : 0x000 = off := offset_of_regAt hr
      rw [performWrite_cmd]
      exact answersNext_command h
    · exact ⟨_, performWrite_of_regAt v hr hcmd⟩

end Answers

end Sys2Proof.Machine

open Sys2Proof.Machine

/-- Settles O55: each kind of admitted access answers, and serving it leaves alone the accesses after it. -/
theorem everyAdmittedAccessIsServed : Obligations.EveryAdmittedAccessIsServed := by
  intro s a rest hp hb hmeaning hadmitted
  have hanswers : AnswersNext (perform a { s with bus := rest }) := by
    obtain rfl | ⟨off, ho, rfl⟩ | ⟨off, v, ho, rfl⟩ := hadmitted
    · exact ⟨_, rfl⟩
    · exact ⟨_, perform_read_of_aligned ho _⟩
    · rw [perform_write_of_aligned ho]
      exact answersNext_performWrite hmeaning
  obtain ⟨t, ht⟩ := hanswers
  exact ⟨t, (step_of_bus_cons hp hb).trans ht, perform_bus ht⟩

/-- Settles O50: at such an offset there is no register. -/
theorem unmappedOffsetsReadZeroAndIgnoreWrites : Obligations.UnmappedOffsetsReadZeroAndIgnoreWrites := by
  intro s v off hoff
  have hnone := regAt_of_unmapped hoff
  exact ⟨readValue_of_regAt_none hnone, performWrite_of_regAt_none v hnone⟩

/-- Settles O51: the access at the front of the list is refused before the register map is looked at. -/
theorem narrowOrMisalignedAccessRefused : Obligations.NarrowOrMisalignedAccessRefused :=
  fun _ _ _ v _ hp hbad =>
    ⟨fun hb => (step_of_bus_cons hp hb).trans (perform_read_of_not_admitted hbad _),
      fun hb => (step_of_bus_cons hp hb).trans (perform_write_of_not_admitted hbad v _)⟩

/-- Settles O53: what is read does not depend on the list the access is taken off. -/
theorem readsHaveNoSideEffect : Obligations.ReadsHaveNoSideEffect :=
  fun _ _ _ hp ho hb => (step_of_bus_cons hp hb).trans (perform_read_of_aligned ho _)
end

section
/-! The command word (30_encoding R80 to R84) and the command sequences of R91. The decoder is described once, by the list of
the 17 commands a word's A and B can stand for: OP selects the one with its opcode. -/

namespace Sys2Proof

/-- The rows of R82, in its order, with argument A the byte `a` and argument B the half word `b` (R81). -/
def commandsOf (a : Byte) (b : Half) : List Instr :=
  [.nop, .crcInit, .crcByte a, .encRead, .encWrite, .encBlk a.toNat, .rxClear, .rxPush a, .decBlk a.toNat,
   .fldS16 b.toNat, .fldU16 b.toNat, .fldBool b.toNat, .fldEnum a.toNat b.toNat, .outPop, .outClear, .clrErr, .softReset]

/-! ## The rows of R82 -/

/-- Whatever A and B are, the rows have the opcodes R82 lists. -/
theorem map_opcode_commandsOf (a : Byte) (b : Half) : (commandsOf a b).map (·.opcode.toNat) = legalOpcodes := rfl

theorem exists_mem_commandsOf_of_legal {op : Byte} (h : op.toNat ∈ legalOpcodes) (a : Byte) (b : Half) :
    ∃ i ∈ commandsOf a b, i.opcode = op := by
  rw [← map_opcode_commandsOf a b, List.mem_map] at h
  obtain ⟨i, hi, hop⟩ := h
  exact ⟨i, hi, BitVec.eq_of_toNat_eq hop⟩

/-- The decoder takes the row with the word's OP, A and B as they stand in the word. -/
theorem decode_of_mem_commandsOf {w : Word} {i : Instr} (hi : i ∈ commandsOf (aField w) (bField w))
    (hop : i.opcode = opField w) : decode w = .ok i := by
  unfold decode
  rw [← hop]
  clear hop
  fin_cases hi <;> rfl

/-- A number taken from A or B fits the field it was taken from. -/
theorem wf_of_mem_commandsOf {a : Byte} {b : Half} : ∀ i ∈ commandsOf a b, i.wf = true := by
  have hA : fitsA a.toNat = true := decide_eq_true a.isLt
  have hB : fitsB b.toNat = true := decide_eq_true b.isLt
  simp [commandsOf, Instr.wf, hA, hB]

/-! ## Well-formed commands are rows -/

theorem toNat_ofNat_of_fitsA {n : Nat} (h : fitsA n = true) : (BitVec.ofNat 8 n).toNat = n :=
  (BitVec.toNat_ofNat n 8).trans (Nat.mod_eq_of_lt (of_decide_eq_true h))

theorem toNat_ofNat_of_fitsB {n : Nat} (h : fitsB n = true) : (BitVec.ofNat 16 n).toNat = n :=
  (BitVec.toNat_ofNat n 16).trans (Nat.mod_eq_of_lt (of_decide_eq_true h))

/-- The arguments the encoder writes stand for the command it was given, if they fit. -/
theorem mem_commandsOf_args {i : Instr} (h : i.wf = true) : i ∈ commandsOf i.argA i.argB := by
  cases i with
  | nop | crcInit | crcByte _ | encRead | encWrite | rxClear | rxPush _ | outPop | outClear | clrErr | softReset =>
    simp [commandsOf, Instr.argA]
  | encBlk p | decBlk p => simp [commandsOf, Instr.argA, toNat_ofNat_of_fitsA h]
  | fldS16 o | fldU16 o | fldBool o => simp [commandsOf, Instr.argB, toNat_ofNat_of_fitsB h]
  | fldEnum t o =>
    obtain ⟨ht, ho⟩ : fitsA t = true ∧ fitsB o = true := by simpa [Instr.wf] using h
    simp [commandsOf, Instr.argA, Instr.argB, toNat_ofNat_of_fitsA ht, toNat_ofNat_of_fitsB ho]

/-! ## The ignored fields -/

/-- A row stands whatever the fields are that its opcode ignores (R83). -/
theorem mem_commandsOf_of_used {a a' : Byte} {b b' : Half} {i : Instr} (hi : i ∈ commandsOf a b)
    (hA : i.opcode.toNat ∈ [0x02, 0x12, 0x21, 0x30, 0x34] → a = a')
    (hB : i.opcode.toNat ∈ [0x31, 0x32, 0x33, 0x34] → b = b') : i ∈ commandsOf a' b' := by
  cases i with
  | nop | crcInit | encRead | encWrite | rxClear | outPop | outClear | clrErr | softReset => simp [commandsOf]
  | crcByte _ | encBlk _ | rxPush _ | decBlk _ =>
    obtain rfl := hA (by simp [Instr.opcode])
    simpa [commandsOf] using hi
  | fldS16 _ | fldU16 _ | fldBool _ =>
    obtain rfl := hB (by simp [Instr.opcode])
    simpa [commandsOf] using hi
  | fldEnum _ _ =>
    obtain rfl := hA (by simp [Instr.opcode])
    obtain rfl := hB (by simp [Instr.opcode])
    exact hi

end Sys2Proof

namespace Sys2Proof.Machine

open Sys2Proof.Safety

/-! ## Sequences of commands -/

theorem runCommands_cons_of_next {i : Instr} {s t : State} (h : exec i s = .next t) (is : List Instr) :
    runCommands (i :: is) s = runCommands is t := by
  simp only [runCommands, h]

section Sequences

variable (s : State)

theorem exec_crcInit : exec .crcInit s = .next { s with crc := crcInitial, err := 0 } := rfl

theorem exec_crcByte (b : Byte) : exec (.crcByte b) s = .next { s with crc := crcStep s.crc b, err := 0 } := rfl

theorem exec_rxClear : exec .rxClear s = .next { s with rx := [], err := 0 } := rfl

theorem exec_rxPush_of_room (b : Byte) (h : s.rx.length < s.params.rxMax) :
    exec (.rxPush b) s = .next { s with rx := s.rx ++ [b], err := 0 } :=
  if_neg (Nat.ne_of_lt h)

/-- From any running CRC, one CRC_BYTE per byte folds the bytes into it. -/
theorem runCommands_crcBytes (bs : List Byte) (c : Half) :
    runCommands (bs.map .crcByte) { s with crc := c, err := 0 } =
      .next { s with crc := bs.foldl crcStep c, err := 0 } := by
  induction bs generalizing c with
  | nil => rfl
  | cons b bs ih => exact (runCommands_cons_of_next (exec_crcByte _ b) _).trans (ih (crcStep c b))

/-- From any payload that leaves room for the bytes, one RX_PUSH per byte appends them. -/
theorem runCommands_rxPushes (bs pre : List Byte) (h : pre.length + bs.length ≤ s.params.rxMax) :
    runCommands (bs.map .rxPush) { s with rx := pre, err := 0 } = .next { s with rx := pre ++ bs, err := 0 } := by
  induction bs generalizing pre with
  | nil => rw [List.append_nil]; rfl
  | cons b bs ih =>
    rw [List.length_cons] at h
    have hroom : pre.length < s.params.rxMax := by omega
    have hrest : (pre ++ [b]).length + bs.length ≤ s.params.rxMax := by
      rw [List.length_append, List.length_singleton]
      omega
    rw [List.append_cons]
    exact (runCommands_cons_of_next (exec_rxPush_of_room _ b hroom) _).trans (ih (pre ++ [b]) hrest)

end Sequences

end Sys2Proof.Machine

open Sys2Proof Sys2Proof.Machine

/-- Settles O1: the word's three fields are the command's opcode and arguments, and these give its row of R82. -/
theorem decodeInvertsEncode : Obligations.DecodeInvertsEncode := by
  intro i hwf
  have hrow : i ∈ commandsOf (aField (encode i)) (bField (encode i)) := by
    simpa [encode] using mem_commandsOf_args hwf
  have hop : i.opcode = opField (encode i) := by simp [encode]
  exact decode_of_mem_commandsOf hrow hop

/-- Settles O2: a listed OP has its row, and any other word is refused. -/
theorem decodeSelectsByOpcodeAlone : Obligations.DecodeSelectsByOpcodeAlone := by
  refine ⟨fun w hlegal => ?_, fun w hillegal => decode_of_not_legal hillegal⟩
  obtain ⟨i, hrow, hop⟩ := exists_mem_commandsOf_of_legal hlegal (aField w) (bField w)
  exact ⟨i, decode_of_mem_commandsOf hrow hop, hop, wf_of_mem_commandsOf i hrow⟩

/-- Settles O3: the row of the one word is a row of the other, so both decode to the same command. -/
theorem ignoredFieldsHaveNoEffect : Obligations.IgnoredFieldsHaveNoEffect := by
  intro w w' s hop hA hB
  by_cases hlegal : (opField w).toNat ∈ legalOpcodes
  · obtain ⟨i, hrow, hi⟩ := exists_mem_commandsOf_of_legal hlegal (aField w) (bField w)
    rw [← hi] at hA hB
    have hrow' : i ∈ commandsOf (aField w') (bField w') := mem_commandsOf_of_used hrow hA hB
    rw [command_of_decode_ok (decode_of_mem_commandsOf hrow hi),
      command_of_decode_ok (decode_of_mem_commandsOf hrow' (hi.trans hop))]
  · rw [command_of_not_legal hlegal, command_of_not_legal (hop ▸ hlegal)]

/-- Settles O11: CRC_INIT starts the fold that the CRC_BYTE commands go on with. -/
theorem crcCommandsComputeCrcOfAnyBytes : Obligations.CrcCommandsComputeCrcOfAnyBytes :=
  fun bs s => (runCommands_cons_of_next (exec_crcInit s) _).trans (runCommands_crcBytes s bs crcInitial)

/-- Settles O17: RX_CLEAR leaves the empty payload, which has room for all the bytes. -/
theorem rxLoadCommandsLoadThePayload : Obligations.RxLoadCommandsLoadThePayload := by
  intro bs s hfits
  have hroom : ([] : List Byte).length + bs.length ≤ s.params.rxMax := by simpa using hfits
  exact (runCommands_cons_of_next (exec_rxClear s) _).trans (runCommands_rxPushes s bs [] hroom)

/-- Settles O4: seven closed words, each evaluated by the decoder. -/
theorem sampleWordsDecode : Obligations.SampleWordsDecode := by
  unfold Obligations.SampleWordsDecode
  decide

/-- Settles O40: such a word is refused by the decoder, and the refusal raises ILLEGAL_OP. -/
theorem illegalOpcodeRaisesAndChangesNothingElse : Obligations.IllegalOpcodeRaisesAndChangesNothingElse :=
  fun _ s hillegal => command_of_not_legal hillegal s
end

section
/-! The CRC generator (40_crc R100 to R104). The eight shifts of a step are an iterate, and one shift can be undone: the low bit
it drops comes back as bit 15, which only the XOR with 0xA001 can set. -/

namespace Sys2Proof.Machine

/-! ## One shift -/

/-- The two cases of R100 as one XOR. -/
theorem crcShift_eq_xor (c : Half) : crcShift c = (c >>> 1) ^^^ (if c.getLsbD 0 then 0xA001 else 0) := by
  unfold crcShift
  split
  · rfl
  · exact BitVec.xor_zero.symm

/-- XOR with a fixed word is its own inverse. -/
theorem xor_right_bijective (x : Half) : Function.Bijective (fun c : Half => c ^^^ x) :=
  Function.Involutive.bijective fun c => by simp

/-- Bit 15 of a shifted CRC tells whether 0xA001 was applied. -/
theorem getLsbD_crcShift_fifteen (c : Half) : (crcShift c).getLsbD 15 = c.getLsbD 0 := by
  have htop : (c >>> 1).getLsbD 15 = false := by simp
  rw [crcShift_eq_xor, BitVec.getLsbD_xor, htop, Bool.false_xor]
  cases c.getLsbD 0 <;> decide

theorem crcShift_injective : Function.Injective crcShift := by
  intro c d h
  have hlow : c.getLsbD 0 = d.getLsbD 0 := by
    rw [← getLsbD_crcShift_fifteen c, h, getLsbD_crcShift_fifteen d]
  have hrest : c >>> 1 = d >>> 1 := by
    rw [crcShift_eq_xor, crcShift_eq_xor, hlow] at h
    exact (xor_right_bijective _).injective h
  refine BitVec.eq_of_getLsbD_eq fun i _ => ?_
  cases i with
  | zero => exact hlow
  | succ n => simpa [Nat.add_comm] using congrArg (·.getLsbD n) hrest

theorem crcShift_bijective : Function.Bijective crcShift :=
  Finite.injective_iff_bijective.mp crcShift_injective

/-! ## One step -/

theorem crcShifts_eq_iterate (n : Nat) (c : Half) : crcShifts n c = crcShift^[n] c := by
  induction n generalizing c with
  | zero => rfl
  | succ n ih => exact ih (crcShift c)

theorem crcStep_eq_iterate (c : Half) (b : Byte) : crcStep c b = crcShift^[8] (c ^^^ b.setWidth 16) :=
  crcShifts_eq_iterate 8 _

theorem crcStep_bijective (b : Byte) : Function.Bijective (fun c : Half => crcStep c b) := by
  simp only [crcStep_eq_iterate]
  exact (crcShift_bijective.iterate 8).comp (xor_right_bijective _)

/-! ## A list of bytes -/

theorem crc16_append_singleton (bs : List Byte) (b : Byte) : crc16 (bs ++ [b]) = crcStep (crc16 bs) b :=
  List.foldl_concat crcStep crcInitial b bs

end Sys2Proof.Machine

open Sys2Proof Sys2Proof.Machine

/-- Settles O7: the bytes and their CRC are a frame; FF FF is the frame of no bytes. -/
theorem crcOverFrameWithItsCrcIsZero : Obligations.CrcOverFrameWithItsCrcIsZero := by
  have hempty : frameOf [] = [0xFF, 0xFF] := by decide
  exact ⟨crc16_frameOf, hempty ▸ crc16_frameOf []⟩

/-- Settles O8: the XOR with the byte and each of the eight shifts are bijections. -/
theorem crcStepIsBijectiveForEachByte : Obligations.CrcStepIsBijectiveForEachByte :=
  crcStep_bijective

/-- Settles O5: the function R100 iterates is the model's shift. -/
theorem crcStepIsEightConditionalShifts : Obligations.CrcStepIsEightConditionalShifts :=
  crcStep_eq_iterate

/-- Settles O6: the fold at its two ends, and the check value by evaluation. -/
theorem crcOfBytesIsTheFold : Obligations.CrcOfBytesIsTheFold :=
  ⟨rfl, crc16_append_singleton, by decide +kernel⟩

/-- Settles O9: OP selects the row of CRC_INIT, and the command is one assignment. -/
theorem crcInitSetsInitialValue : Obligations.CrcInitSetsInitialValue := by
  refine ⟨fun w hop => ?_, exec_crcInit⟩
  have hrow : Instr.crcInit ∈ commandsOf (aField w) (bField w) := by simp [commandsOf]
  exact decode_of_mem_commandsOf hrow hop.symm

/-- Settles O10: OP selects the row of CRC_BYTE with the word's A, and the command is one assignment. -/
theorem crcByteFoldsOneByte : Obligations.CrcByteFoldsOneByte := by
  refine ⟨fun w hop => ?_, fun b s => exec_crcByte s b⟩
  have hrow : Instr.crcByte (aField w) ∈ commandsOf (aField w) (bField w) := by simp [commandsOf]
  exact decode_of_mem_commandsOf hrow hop.symm
end

section
/-! The framer (41_framer R120 to R126). Every encoder ends in the one assignment of R120, so each is that assignment with the
header of its own rule; ENC_BLK reaches it through the position lookup. -/

namespace Sys2Proof.Machine

open Sys2Proof.Config

variable {s : State}

/-! ## The end of every encoder -/

/-- The state R120 leaves for a header: TX its frame, CRC its CRC, ERR 0, every other item as it was. -/
theorem sendFrame_eq (h : List Byte) (s : State) :
    sendFrame h s = .next { s with tx := frameOf h, crc := crc16 h, err := 0 } := rfl

/-! ## One equation per command -/

theorem exec_encRead (s : State) :
    exec .encRead s = sendFrame (readHeader s.reqSlave s.reqFc s.reqAddr s.reqCount) s := rfl

theorem exec_encWrite (s : State) :
    exec .encWrite s = sendFrame (writeHeader s.reqSlave s.reqAddr s.reqValue) s := rfl

theorem withBlock_of_catlen_le {p : Nat} (k : BlockDesc → Result) (h : catlen s ≤ p) :
    withBlock p s k = raise .badPos s := by
  have hnone : enabledAt s p = none := enabledAt_eq_none_iff.mpr h
  simp only [withBlock, hnone]

theorem exec_encBlk_of_enabledAt {p : Nat} {b : Fin nBlk} (hb : enabledAt s p = some b)
    (hrom : romOk s.params (activeRom s.params) = true) :
    exec (.encBlk p) s =
      sendFrame (readHeader s.reqSlave (catEntry s b).fc (catEntry s b).start (catEntry s b).count) s := by
  rw [exec_encBlk, withBlock_of_enabledAt _ hb hrom, frameBlock]

/-- The test of R126 is for equality with P_RXMAX: a longer payload, which no run has, would take the byte. -/
theorem exec_rxPush_of_ne (b : Byte) (h : s.rx.length ≠ s.params.rxMax) :
    exec (.rxPush b) s = .next { s with rx := s.rx ++ [b], err := 0 } :=
  if_neg h

theorem exec_rxPush_of_full (b : Byte) (h : s.rx.length = s.params.rxMax) : exec (.rxPush b) s = raise .rxFull s :=
  if_pos h

end Sys2Proof.Machine

open Sys2Proof Sys2Proof.Machine

/-- Settles O14: the lookup fails at or above CATLEN, and below it hands the catalog entry to the read header. -/
theorem encBlkBuildsFrameOfCatalogEntry : Obligations.EncBlkBuildsFrameOfCatalogEntry := by
  refine ⟨fun w hop => ?_, fun p s hp => ?_, fun p b s hb hrom => ?_⟩
  · have hrow : Instr.encBlk (aField w).toNat ∈ commandsOf (aField w) (bField w) := by simp [commandsOf]
    exact decode_of_mem_commandsOf hrow hop.symm
  · exact (exec_encBlk p s).trans (withBlock_of_catlen_le _ hp)
  · exact (exec_encBlk_of_enabledAt hb hrom).trans (sendFrame_eq _ s)

/-- Settles O12: OP selects the row of ENC_READ, and the frame is that of R85's header of the request registers. -/
theorem encReadBuildsReadFrame : Obligations.EncReadBuildsReadFrame := by
  refine ⟨fun w hop => ?_, fun s => (exec_encRead s).trans (sendFrame_eq _ s)⟩
  have hrow : Instr.encRead ∈ commandsOf (aField w) (bField w) := by simp [commandsOf]
  exact decode_of_mem_commandsOf hrow hop.symm

/-- Settles O13: OP selects the row of ENC_WRITE, and the frame is that of R86's header. -/
theorem encWriteBuildsWriteFrame : Obligations.EncWriteBuildsWriteFrame := by
  refine ⟨fun w hop => ?_, fun s => (exec_encWrite s).trans (sendFrame_eq _ s)⟩
  have hrow : Instr.encWrite ∈ commandsOf (aField w) (bField w) := by simp [commandsOf]
  exact decode_of_mem_commandsOf hrow hop.symm

/-- Settles O15: OP selects the row of RX_CLEAR, and the command is one assignment. -/
theorem rxClearEmptiesPayload : Obligations.RxClearEmptiesPayload := by
  refine ⟨fun w hop => ?_, exec_rxClear⟩
  have hrow : Instr.rxClear ∈ commandsOf (aField w) (bField w) := by simp [commandsOf]
  exact decode_of_mem_commandsOf hrow hop.symm

/-- Settles O16: OP selects the row of RX_PUSH with the word's A, and the capacity test selects between the two outcomes. -/
theorem rxPushAppendsOrRaises : Obligations.RxPushAppendsOrRaises := by
  refine ⟨fun w hop => ?_, fun b _ hroom => exec_rxPush_of_ne b hroom, fun b _ hfull => exec_rxPush_of_full b hfull⟩
  have hrow : Instr.rxPush (aField w) ∈ commandsOf (aField w) (bField w) := by simp [commandsOf]
  exact decode_of_mem_commandsOf hrow hop.symm
end

section
/-! The field unpacker (42_decode R150 to R165). What each record carries is said once as a concatenation of its fields, so that
a reader of the record takes them back; DEC_BLK and the FLD commands are each one equation per outcome of R214. -/

namespace Sys2Proof.Machine

open Sys2Proof.Config Sys2Proof.Safety

/-! ## The field fetch -/

theorem joinBytes_eq_append (h l : Byte) : joinBytes h l = h ++ l :=
  BitVec.setWidth_append_eq_shiftLeft_setWidth_or.symm

theorem raw_eq_append {rx : List Byte} {o : Nat} {h l : Byte} (hh : rx[o]? = some h) (hl : rx[o + 1]? = some l) :
    raw rx o = h ++ l :=
  (raw_eq_joinBytes hh hl).trans (joinBytes_eq_append h l)

theorem append_eq_zero_iff {m n : Nat} {x : BitVec m} {y : BitVec n} : x ++ y = 0 ↔ x = 0 ∧ y = 0 := by
  constructor
  · intro h
    have hx : (x ++ y).extractLsb' n m = x := BitVec.extractLsb'_append_eq_left
    have hy : (x ++ y).extractLsb' 0 n = y := BitVec.extractLsb'_append_eq_right
    rw [h] at hx hy
    exact ⟨hx.symm.trans BitVec.extractLsb'_zero, hy.symm.trans BitVec.extractLsb'_zero⟩
  · rintro ⟨rfl, rfl⟩
    exact BitVec.zero_append_zero

/-! ## BOOL -/

/-- A field is 0 where both its bytes are (R163). -/
theorem convBool_append (name : Half) (h l : Byte) :
    convBool name (h ++ l) = { kind := 3, name := name, value := if h = 0 ∧ l = 0 then 0 else 1 } := by
  have hzero : (h ++ l : Half) = 0 ↔ h = 0 ∧ l = 0 := append_eq_zero_iff
  simp only [convBool, hzero]

/-! ## SCALED -/

/-- Sign extension keeps the field in the low 16 bits (R10). -/
theorem extractLsb'_sext32 (r : Half) : (sext32 r).extractLsb' 0 16 = r := by
  ext i hi
  rw [sext32, BitVec.getElem_extractLsb', BitVec.getLsbD_signExtend, Nat.zero_add]
  simp [hi, show i < 32 by omega]

/-- `s16` is the two's-complement reading (R10). -/
theorem s16_eq_toInt (r : Half) : s16 r = r.toInt := by
  rw [BitVec.toInt_eq_msb_cond, BitVec.msb_eq_getLsbD_last, s16]
  rfl

theorem scaledValue_convScaled (name r : Half) : scaledValue (convScaled name r) = (r.toInt : Rat) / 100 := by
  rw [scaledValue, convScaled, extractLsb'_sext32, s16_eq_toInt]

/-! ## ENUM -/

section Enum

variable {rom : Rom} {name : Half} {t : Nat} {r : Half}

theorem enumUnknown_iff : enumUnknown rom t r = true ↔ (enumTable rom t).length ≤ r.toNat := decide_eq_true_iff

/-- The record as R154 writes it, with UNKNOWN a number. -/
theorem convEnum_eq (rom : Rom) (name : Half) (t : Nat) (r : Half) :
    convEnum rom name t r =
      { kind := 4, name := name
        value := ((if (enumTable rom t).length ≤ r.toNat then 1 else 0 : Word) <<< 31) ||| (BitVec.ofNat 32 t <<< 16) |||
          r.setWidth 32 } := by
  by_cases hu : (enumTable rom t).length ≤ r.toNat
  · rw [if_pos hu, convEnum, if_pos (enumUnknown_iff.mpr hu), zext32]
    rfl
  · rw [if_neg hu, convEnum, if_neg (mt enumUnknown_iff.mp hu), zext32]
    rfl

/-- VALUE of an ENUM record as R39 lays it out: UNKNOWN, seven zeros, the table number, the code. -/
theorem convEnum_value (rom : Rom) (name r : Half) (ht : t < 256) :
    (convEnum rom name t r).value = BitVec.ofBool (enumUnknown rom t r) ++ 0#7 ++ BitVec.ofNat 8 t ++ r := by
  have htable : (BitVec.ofNat 8 t).setWidth 32 = BitVec.ofNat 32 t := by
    apply BitVec.eq_of_toNat_eq
    rw [BitVec.toNat_setWidth, BitVec.toNat_ofNat, BitVec.toNat_ofNat]
    omega
  rw [← BitVec.setWidth_eq (BitVec.ofBool _ ++ _ ++ _ ++ _),
    BitVec.setWidth_append_append_append_eq_shiftLeft_setWidth_or, htable]
  cases hu : enumUnknown rom t r <;> simp [convEnum, hu, zext32]

theorem convEnum_code (ht : t < 256) : (convEnum rom name t r).value.extractLsb' 0 16 = r := by
  rw [convEnum_value rom name r ht]
  exact BitVec.extractLsb'_append_eq_right

theorem convEnum_table (ht : t < 256) : ((convEnum rom name t r).value.extractLsb' 16 8).toNat = t := by
  rw [convEnum_value rom name r ht, BitVec.extractLsb'_append_eq_of_le (Nat.le_refl 16),
    BitVec.extractLsb'_append_eq_right, BitVec.toNat_ofNat, Nat.mod_eq_of_lt ht]

theorem convEnum_reserved (ht : t < 256) : (convEnum rom name t r).value.extractLsb' 24 7 = 0 := by
  rw [convEnum_value rom name r ht, BitVec.extractLsb'_append_eq_of_le (by decide),
    BitVec.extractLsb'_append_eq_of_le (by decide)]
  exact BitVec.extractLsb'_append_eq_right

theorem convEnum_unknown (ht : t < 256) : (convEnum rom name t r).value.getLsbD 31 = enumUnknown rom t r := by
  rw [convEnum_value rom name r ht, BitVec.getLsbD_append, BitVec.getLsbD_append, BitVec.getLsbD_append]
  simp

/-- The label of an ENUM record is the table's entry for its code (R154, R34). -/
theorem enumLabel_convEnum (ht : t < 256) :
    enumLabel rom (convEnum rom name t r) = (enumTable rom t)[r.toNat]?.getD "Unknown" := by
  rw [enumLabel, convEnum_unknown ht, convEnum_table ht, convEnum_code ht, List.getD_eq_getElem?_getD]
  split
  · rename_i hu
    rw [List.getElem?_eq_none (enumUnknown_iff.mp hu), Option.getD_none]
  · rfl

end Enum

/-! ## Identity -/

section Ident

variable {name : Half} {v8 : Bool} {str : List Byte}

theorem identIsV8_iff {rom : Rom} {rx : List Byte} : identIsV8 rom rx = true ↔ raw rx rom.identVerOff = 8 := beq_iff_eq

theorem identString_of_v8 {rom : Rom} {rx : List Byte} (h : raw rx rom.identVerOff = 8) :
    identString rom rx = applyScheme identV8 rom.identMaxLen rom.identV8 rx :=
  if_pos (identIsV8_iff.mpr h)

theorem identString_of_not_v8 {rom : Rom} {rx : List Byte} (h : raw rx rom.identVerOff ≠ 8) :
    identString rom rx = applyScheme identOther rom.identMaxLen rom.identOther rx :=
  if_neg (mt identIsV8_iff.mp h)

theorem chunkRecs_kind : ∀ r ∈ chunkRecs name str, r.kind = 5 := by
  intro r hr
  obtain ⟨k, -, rfl⟩ := List.mem_map.mp hr
  rfl

theorem identRecs_name : ∀ r ∈ identRecs name v8 str, r.name = name := by
  intro r hr
  rcases List.mem_append.mp hr with hchunk | hend
  · obtain ⟨k, -, rfl⟩ := List.mem_map.mp hchunk
    rfl
  · obtain rfl := List.mem_singleton.mp hend
    rfl

theorem or_reverse (a b c d : Word) : a ||| b ||| c ||| d = d ||| c ||| b ||| a := by
  rw [BitVec.or_comm _ d, BitVec.or_comm _ c, BitVec.or_comm a b, ← BitVec.or_assoc, ← BitVec.or_assoc]

/-- A chunk's VALUE is its four bytes, the lowest bits those of the first (R39). -/
theorem chunkValue_eq_append (c : List Byte) :
    chunkValue c = c.getD 3 0 ++ c.getD 2 0 ++ c.getD 1 0 ++ c.getD 0 0 := by
  rw [← BitVec.setWidth_eq (_ ++ _ ++ _ ++ c.getD 0 0),
    BitVec.setWidth_append_append_append_eq_shiftLeft_setWidth_or]
  exact or_reverse _ _ _ _

/-- A host takes the bytes of a chunk back in order (R39). -/
theorem chunkBytes_append (b0 b1 b2 b3 : Byte) : chunkBytes (b3 ++ b2 ++ b1 ++ b0) = [b0, b1, b2, b3] := by
  have h0 : (b3 ++ b2 ++ b1 ++ b0 : Word).extractLsb' 0 8 = b0 := BitVec.extractLsb'_append_eq_right
  have h1 : (b3 ++ b2 ++ b1 ++ b0 : Word).extractLsb' 8 8 = b1 := by
    rw [BitVec.extractLsb'_append_eq_of_le (by decide)]
    exact BitVec.extractLsb'_append_eq_right
  have h2 : (b3 ++ b2 ++ b1 ++ b0 : Word).extractLsb' 16 8 = b2 := by
    rw [BitVec.extractLsb'_append_eq_of_le (by decide), BitVec.extractLsb'_append_eq_of_le (by decide)]
    exact BitVec.extractLsb'_append_eq_right
  have h3 : (b3 ++ b2 ++ b1 ++ b0 : Word).extractLsb' 24 8 = b3 := by
    rw [BitVec.extractLsb'_append_eq_of_le (by decide), BitVec.extractLsb'_append_eq_of_le (by decide)]
    exact BitVec.extractLsb'_append_eq_left
  rw [chunkBytes, h0, h1, h2, h3]

theorem chunkBytes_chunkValue (c : List Byte) :
    chunkBytes (chunkValue c) = [c.getD 0 0, c.getD 1 0, c.getD 2 0, c.getD 3 0] := by
  rw [chunkValue_eq_append, chunkBytes_append]

/-- The first `n` chunks joined are the first `4 n` bytes, a missing one 0. -/
theorem flatMap_chunkBytes_range (str : List Byte) (n : Nat) :
    (List.range n).flatMap (fun k => chunkBytes (chunkValue (str.drop (4 * k)))) =
      (List.range (4 * n)).map (fun i => str.getD i 0) := by
  induction n with
  | zero => rfl
  | succ n ih =>
    have hlast : List.range (4 * (n + 1)) = List.range (4 * n) ++ [4 * n, 4 * n + 1, 4 * n + 2, 4 * n + 3] := by
      rw [Nat.mul_succ, List.range_add]
      rfl
    rw [List.range_succ, List.flatMap_append, ih, hlast, List.map_append]
    simp [chunkBytes_chunkValue, List.getD_eq_getElem?_getD]

theorem take_map_getD_range {n : Nat} (h : str.length ≤ n) :
    ((List.range n).map (fun i => str.getD i 0)).take str.length = str := by
  apply List.ext_getElem
  · simpa using h
  · intro i hi hi'
    simp [hi']

/-- VALUE of the end record: the formula of R156 adds nothing into the 16 bits of the length. -/
theorem identEnd_value (v8 : Bool) {n : Nat} (h : n < 65536) :
    (if v8 then 1#32 <<< 16 else 0#32) ||| BitVec.ofNat 32 n = BitVec.ofNat 32 ((if v8 then 65536 else 0) + n) := by
  cases v8 with
  | false => simp
  | true =>
    have hor : 65536 + n = 65536 ||| n := Nat.two_pow_add_eq_or_of_lt (i := 16) h 1
    rw [if_pos rfl, if_pos rfl, hor, BitVec.ofNat_or]
    rfl

theorem identRecs_eq (name : Half) (v8 : Bool) (h : str.length < 65536) :
    identRecs name v8 str = chunkRecs name str ++
      [{ kind := 6, name := name, value := BitVec.ofNat 32 ((if v8 then 65536 else 0) + str.length) }] := by
  rw [identRecs, identEnd_value v8 h]

/-- The length a host reads from the end record (R39). -/
theorem identEnd_length (v8 : Bool) {n : Nat} (h : n < 65536) :
    ((BitVec.ofNat 32 ((if v8 then 65536 else 0) + n)).extractLsb' 0 16).toNat = n := by
  rw [BitVec.extractLsb'_toNat, BitVec.toNat_ofNat, Nat.shiftRight_zero]
  split <;> omega

theorem identRecs_getElem?_chunk {k : Nat} (h : k < (str.length + 3) / 4) :
    (identRecs name v8 str)[k]? = some { kind := 5, name := name, value := chunkValue (str.drop (4 * k)) } := by
  have hk : k < (chunkRecs name str).length := by simpa [chunkRecs] using h
  rw [identRecs, List.getElem?_append_left hk]
  simp [chunkRecs, h]

/-- The host has the string back (R156). -/
theorem identOf_identRecs (name : Half) (v8 : Bool) (h : str.length < 65536) :
    identOf (identRecs name v8 str) = str := by
  have hchunks : (identRecs name v8 str).filter (fun r => r.kind == 5) = chunkRecs name str := by
    have hall : (chunkRecs name str).filter (fun r => r.kind == 5) = chunkRecs name str :=
      List.filter_eq_self.mpr fun r hr => beq_iff_eq.mpr (chunkRecs_kind r hr)
    rw [identRecs, List.filter_append, hall]
    simp
  have hend : (identRecs name v8 str).find? (fun r => r.kind == 6) =
      some { kind := 6, name := name, value := BitVec.ofNat 32 ((if v8 then 65536 else 0) + str.length) } := by
    have hnone : (chunkRecs name str).find? (fun r => r.kind == 6) = none :=
      List.find?_eq_none.mpr fun r hr => by simp [chunkRecs_kind r hr]
    rw [identRecs_eq name v8 h, List.find?_append, hnone]
    rfl
  have hjoin : (chunkRecs name str).flatMap (fun r => chunkBytes r.value) =
      (List.range (4 * ((str.length + 3) / 4))).map (fun i => str.getD i 0) := by
    rw [chunkRecs, List.flatMap_map, flatMap_chunkBytes_range]
  rw [identOf, hchunks, hend, hjoin, Option.map_some, Option.getD_some, identEnd_length v8 h]
  exact take_map_getD_range (by omega)

end Ident

/-! ## Emitting records -/

section Commands

variable {s : State}

theorem emitAll_of_full {recs : List Record} (h : s.params.outDepth < s.out.length + recs.length) :
    emitAll recs s = raise .outFull s :=
  if_pos (decide_eq_true h)

theorem decodeBlock_of_length_ne {d : BlockDesc} (h : s.rx.length ≠ d.explen) : decodeBlock d s = raise .lenMismatch s :=
  if_pos h

/-- The refusal of R156, where the model places it (log 8). -/
theorem decodeBlock_of_identBroken {d : BlockDesc} (hlen : s.rx.length = d.explen)
    (hident : ∃ f ∈ d.fields, f.kind = .ident) (hfit : ¬ IdentFits s) : decodeBlock d s = .refused .identTooLong := by
  obtain ⟨f, hf, hk⟩ := hident
  have hany : d.fields.any isIdent = true := List.any_eq_true.mpr ⟨f, hf, isIdent_iff.mpr hk⟩
  have hbroken : identBroken (activeRom s.params) s.rx = true := Bool.eq_true_of_not_eq_false hfit
  simp [decodeBlock, hlen, hany, hbroken]

theorem exec_decBlk_of_enabledAt {p : Nat} {b : Fin nBlk} (hb : enabledAt s p = some b)
    (hrom : romOk s.params (activeRom s.params) = true) : exec (.decBlk p) s = decodeBlock (catEntry s b) s := by
  rw [exec_decBlk, withBlock_of_enabledAt _ hb hrom]

/-! ## The FLD commands -/

variable {o : Nat}

theorem emitField_of_out_of_range (conv : Half → Record) (h : s.rx.length < o + 2) :
    emitField conv o s = raise .offsetRange s :=
  if_pos (decide_eq_true h)

theorem emitField_of_in_range (conv : Half → Record) (h : o + 2 ≤ s.rx.length) :
    emitField conv o s = emitAll [conv (raw s.rx o)] s :=
  if_neg (by simpa [offsetOut] using h)

theorem emitField_of_full (conv : Half → Record) (ho : o + 2 ≤ s.rx.length)
    (hfull : s.params.outDepth < s.out.length + 1) :
    emitField conv o s = raise .outFull s :=
  (emitField_of_in_range conv ho).trans (emitAll_of_full hfull)

theorem emitField_of_room (conv : Half → Record) {h l : Byte} (hh : s.rx[o]? = some h) (hl : s.rx[o + 1]? = some l)
    (hroom : s.out.length + 1 ≤ s.params.outDepth) :
    emitField conv o s = .next { s with out := s.out ++ [conv (h ++ l)], err := 0 } := by
  have ho : o + 1 < s.rx.length := (List.getElem?_eq_some_iff.mp hl).1
  rw [emitField_of_in_range conv ho, emitAll_of_room hroom, raw_eq_append hh hl]
  rfl

theorem exec_fldS16 (o : Nat) (s : State) : exec (.fldS16 o) s = emitField (convScaled anonymous) o s := rfl

theorem exec_fldU16 (o : Nat) (s : State) : exec (.fldU16 o) s = emitField (convUint anonymous) o s := rfl

theorem exec_fldBool (o : Nat) (s : State) : exec (.fldBool o) s = emitField (convBool anonymous) o s := rfl

theorem exec_fldEnum_of_no_table {t : Nat} (o : Nat) (h : 3 + (activeRom s.params).extraTables.length ≤ t) :
    exec (.fldEnum t o) s = raise .badTable s :=
  if_pos ((Nat.add_comm _ 3).trans_le h)

theorem exec_fldEnum_of_table {t : Nat} (o : Nat) (h : t < 3 + (activeRom s.params).extraTables.length) :
    exec (.fldEnum t o) s = emitField (convEnum (activeRom s.params) anonymous t) o s :=
  if_neg (Nat.not_le.mpr (h.trans_eq (Nat.add_comm 3 _)))

end Commands

/-! ## What a decode looks at -/

/-- Where the first answer is a next state, so is the second, with the same OUT, RX and ERR. -/
def AnswersAlike (a b : Result) : Prop :=
  ∀ s', a = .next s' → ∃ t', b = .next t' ∧ t'.out = s'.out ∧ t'.rx = s'.rx ∧ t'.err = s'.err

theorem answersAlike_next {u v : State} (hout : v.out = u.out) (hrx : v.rx = u.rx) (herr : v.err = u.err) :
    AnswersAlike (.next u) (.next v) := by
  rintro s' ⟨⟩
  exact ⟨v, rfl, hout, hrx, herr⟩

theorem answersAlike_refused (x y : Refusal) : AnswersAlike (.refused x) (.refused y) := nofun

theorem answersAlike_ite {c : Prop} [Decidable c] {a a' b b' : Result} (ha : AnswersAlike a a') (hb : AnswersAlike b b') :
    AnswersAlike (if c then a else b) (if c then a' else b') := by
  split
  · exact ha
  · exact hb

section View

variable {s t : State}

theorem answersAlike_raise (h : SameDecodeView s t) (c : ErrCode) : AnswersAlike (raise c s) (raise c t) :=
  answersAlike_next h.out.symm h.rx.symm rfl

theorem answersAlike_emitAll (h : SameDecodeView s t) (recs : List Record) :
    AnswersAlike (emitAll recs s) (emitAll recs t) := by
  have hroom : outLacks recs.length t = outLacks recs.length s := by simp only [outLacks, h.params, h.out]
  have hdone : AnswersAlike (complete (setOut (s.out ++ recs) s)) (complete (setOut (t.out ++ recs) t)) :=
    answersAlike_next (congrArg (· ++ recs) h.out.symm) h.rx.symm rfl
  rw [emitAll, emitAll, hroom]
  exact answersAlike_ite (answersAlike_raise h _) hdone

theorem answersAlike_decodeBlock (h : SameDecodeView s t) (d : BlockDesc) :
    AnswersAlike (decodeBlock d s) (decodeBlock d t) := by
  rw [decodeBlock, decodeBlock, ← h.params, ← h.rx]
  exact answersAlike_ite (answersAlike_raise h _)
    (answersAlike_ite (answersAlike_refused _ _) (answersAlike_emitAll h _))

theorem answersAlike_decBlk (h : SameDecodeView s t) (p : Nat) : AnswersAlike (exec (.decBlk p) s) (exec (.decBlk p) t) := by
  have hat : enabledAt t p = enabledAt s p := by rw [enabledAt, enabledAt, h.enable]
  have hentry (b : Fin nBlk) : catEntry t b = catEntry s b := by rw [catEntry, catEntry, h.params]
  rw [exec_decBlk, exec_decBlk, withBlock, withBlock, hat, ← h.params]
  cases enabledAt s p with
  | none => exact answersAlike_raise h _
  | some b => exact answersAlike_ite (hentry b ▸ answersAlike_decodeBlock h _) (answersAlike_refused _ _)

end View

end Sys2Proof.Machine

open Sys2Proof Sys2Proof.Machine

/-- Settles O24: the low half of VALUE is the field, whose reading is the two's-complement one. -/
theorem scaledRecordStandsForHundredths : Obligations.ScaledRecordStandsForHundredths :=
  fun n r => ⟨rfl, scaledValue_convScaled n r⟩

/-- Settles O25: VALUE is the concatenation of the fields R39 lays out. -/
theorem enumRecordCarriesCodeAndLabel : Obligations.EnumRecordCarriesCodeAndLabel := by
  intro rom n t r ht
  refine ⟨rfl, rfl, convEnum_code ht, convEnum_table ht, convEnum_reserved ht, ?unknown, fun hout => ?label_unknown,
    fun l hl => ?label⟩
  case unknown => rw [convEnum_unknown ht, enumUnknown_iff]
  case label_unknown => rw [enumLabel_convEnum ht, List.getElem?_eq_none hout, Option.getD_none]
  case label => rw [enumLabel_convEnum ht, hl, Option.getD_some]

/-- Settles O27: the chunks joined are the string and zeros up to a multiple of 4, and the end record says where to cut. -/
theorem identRecordsRebuildTheString : Obligations.IdentRecordsRebuildTheString := by
  intro name v8 str hlen
  refine ⟨length_identRecs name v8 str, identRecs_name, fun k hk => ?chunk,
    ⟨chunkRecs name str, identRecs_eq name v8 hlen, chunkRecs_kind⟩, identOf_identRecs name v8 hlen⟩
  rw [identRecs_getElem?_chunk hk]
  simp [chunkValue, List.getD_eq_getElem?_getD]

/-- Settles O29: one equation per outcome, in the order of R214. -/
theorem decBlkEmitsAllRecordsOrRaises : Obligations.DecBlkEmitsAllRecordsOrRaises := by
  refine ⟨fun w hop => ?_, fun p s hp => ?_, fun p b s hb hrom => ?_⟩
  · have hrow : Instr.decBlk (aField w).toNat ∈ commandsOf (aField w) (bField w) := by simp [commandsOf]
    exact decode_of_mem_commandsOf hrow hop.symm
  · exact (exec_decBlk p s).trans (withBlock_of_catlen_le _ hp)
  · rw [exec_decBlk_of_enabledAt hb hrom]
    refine ⟨fun hlen => ?_, fun hlen hident hfit => ?_, fun hlen hfit hfull => ?_, fun hlen hfit hroom => ?_⟩
    · exact decodeBlock_of_length_ne hlen
    · exact decodeBlock_of_identBroken hlen hident hfit
    · exact (decodeBlock_eq_emitAll hlen hfit).trans (emitAll_of_full hfull)
    · exact (decodeBlock_eq_emitAll hlen hfit).trans (emitAll_of_room hroom)

/-- Settles O44: every test on the way reads the view alone. -/
theorem decodeIgnoresRequestState : Obligations.DecodeIgnoresRequestState :=
  fun p _ _ s' hview hnext => answersAlike_decBlk hview p s' hnext

/-- Settles O23: a big-endian pair is a concatenation, and the two conversions are R152's and R153's formulas. -/
theorem fieldFetchAndPlainConversions : Obligations.FieldFetchAndPlainConversions :=
  ⟨fun _ _ _ _ hh hl => raw_eq_append hh hl, fun _ _ => rfl, fun _ _ => rfl⟩

/-- Settles O26: the version field selects the scheme, and then the scheme's own form says what it gives. -/
theorem identSchemeFollowsVersionField : Obligations.IdentSchemeFollowsVersionField := by
  intro rom rx
  refine ⟨identIsV8_iff, fun hv offs hs => ?_, fun hv offs hs => ?_, fun hv hs => ?_, fun hv hs => ?_⟩
  · rw [identString_of_v8 hv, hs, applyScheme]
  · rw [identString_of_not_v8 hv, hs, applyScheme]
  · rw [identString_of_v8 hv, hs, applyScheme]
  · rw [identString_of_not_v8 hv, hs, applyScheme]

/-- Settles O28: mapping the fields and joining is R157's concatenation, and the kind selects the conversion. -/
theorem blockRecordsFollowFieldOrder : Obligations.BlockRecordsFollowFieldOrder := by
  refine ⟨fun rom rx d => List.flatMap_def, fun rom rx f => ?_⟩
  refine ⟨fun hk => ?_, fun hk => ?_, fun hk => ?_, fun t hk => ?_, fun hk => ?_⟩
  all_goals simp only [fieldRecs, hk]

/-- Settles O31: FLD_S16 is the shared field command with the conversion of R151. -/
theorem fldS16EmitsSignedField : Obligations.FldS16EmitsSignedField := by
  refine ⟨fun w hop => ?_, fun o s ho => (exec_fldS16 o s).trans (emitField_of_out_of_range _ ho),
    fun o s ho hfull => (exec_fldS16 o s).trans (emitField_of_full _ ho hfull),
    fun o s h l hh hl hroom => (exec_fldS16 o s).trans (emitField_of_room _ hh hl hroom)⟩
  have hrow : Instr.fldS16 (bField w).toNat ∈ commandsOf (aField w) (bField w) := by simp [commandsOf]
  exact decode_of_mem_commandsOf hrow hop.symm

/-- Settles O32: FLD_U16 is the shared field command with the conversion of R152. -/
theorem fldU16EmitsUnsignedField : Obligations.FldU16EmitsUnsignedField := by
  refine ⟨fun w hop => ?_, fun o s ho => (exec_fldU16 o s).trans (emitField_of_out_of_range _ ho),
    fun o s ho hfull => (exec_fldU16 o s).trans (emitField_of_full _ ho hfull),
    fun o s h l hh hl hroom => (exec_fldU16 o s).trans (emitField_of_room _ hh hl hroom)⟩
  have hrow : Instr.fldU16 (bField w).toNat ∈ commandsOf (aField w) (bField w) := by simp [commandsOf]
  exact decode_of_mem_commandsOf hrow hop.symm

/-- Settles O33: FLD_BOOL is the shared field command with the conversion of R153. -/
theorem fldBoolEmitsFlagField : Obligations.FldBoolEmitsFlagField := by
  refine ⟨fun w hop => ?_, fun o s ho => (exec_fldBool o s).trans (emitField_of_out_of_range _ ho),
    fun o s ho hfull => (exec_fldBool o s).trans (emitField_of_full _ ho hfull), fun o s h l hh hl hroom => ?_⟩
  · have hrow : Instr.fldBool (bField w).toNat ∈ commandsOf (aField w) (bField w) := by simp [commandsOf]
    exact decode_of_mem_commandsOf hrow hop.symm
  · rw [exec_fldBool, emitField_of_room _ hh hl hroom, convBool_append, anonymous]

/-- Settles O34: BAD_TABLE comes before the shared field command with the conversion of R154. -/
theorem fldEnumEmitsCodeOfTable : Obligations.FldEnumEmitsCodeOfTable := by
  refine ⟨fun w hop => ?_, fun t o s ht => exec_fldEnum_of_no_table o ht, fun t o s ht ho => ?_,
    fun t o s ht ho hfull => ?_, fun t o s h l ht hh hl hroom => ?_⟩
  · have hrow : Instr.fldEnum (aField w).toNat (bField w).toNat ∈ commandsOf (aField w) (bField w) := by simp [commandsOf]
    exact decode_of_mem_commandsOf hrow hop.symm
  · exact (exec_fldEnum_of_table o ht).trans (emitField_of_out_of_range _ ho)
  · exact (exec_fldEnum_of_table o ht).trans (emitField_of_full _ ho hfull)
  · rw [exec_fldEnum_of_table o ht, emitField_of_room _ hh hl hroom]
    rw [convEnum_eq, anonymous]
end

section
/-! The control commands and the output FIFO (43_control R190 to R195). None takes an operand, so each has one row of R82
whatever A and B are; each answers one state, but OUT_POP, which has one outcome for an empty FIFO and one for a front record. -/

namespace Sys2Proof

/-- The commands of 43_control. -/
def controlCommands : List Instr := [.nop, .outPop, .outClear, .clrErr, .softReset]

theorem controlCommands_subset_commandsOf (a : Byte) (b : Half) : controlCommands ⊆ commandsOf a b := by
  simp [controlCommands, commandsOf]

theorem decode_of_mem_controlCommands {i : Instr} (hi : i ∈ controlCommands) {w : Word} (hop : opField w = i.opcode) :
    decode w = .ok i :=
  decode_of_mem_commandsOf (controlCommands_subset_commandsOf _ _ hi) hop.symm

end Sys2Proof

namespace Sys2Proof.Machine

variable {s : State}

/-! ## One equation per outcome -/

theorem exec_nop (s : State) : exec .nop s = .next { s with err := 0 } := rfl

theorem exec_outPop_of_cons {r : Record} {rest : List Record} (h : s.out = r :: rest) :
    exec .outPop s = .next { s with out := rest, err := 0 } := by
  change execOutPop s = _
  rw [execOutPop, h]
  rfl

theorem exec_outPop_of_empty (h : s.out = []) : exec .outPop s = raise .outEmpty s := by
  change execOutPop s = _
  rw [execOutPop, h]

theorem exec_outClear (s : State) : exec .outClear s = .next { s with out := [], err := 0 } := rfl

theorem exec_clrErr (s : State) : exec .clrErr s = .next { s with err := 0, sticky := false } := rfl

theorem exec_softReset (s : State) : exec .softReset s = .next (softResetState s) := rfl

end Sys2Proof.Machine

open Sys2Proof Sys2Proof.Machine

/-- Settles O35: OP selects the row of NOP, and the command is one assignment. -/
theorem nopClearsErrAlone : Obligations.NopClearsErrAlone :=
  ⟨fun _ hop => decode_of_mem_controlCommands (by decide) hop, exec_nop⟩

/-- Settles O36: OP selects the row of OUT_POP, and whether OUT has a front record selects between the two outcomes. -/
theorem outPopRemovesFrontOrRaises : Obligations.OutPopRemovesFrontOrRaises :=
  ⟨fun _ hop => decode_of_mem_controlCommands (by decide) hop, fun _ _ _ hfront => exec_outPop_of_cons hfront,
    fun _ hempty => exec_outPop_of_empty hempty⟩

/-- Settles O37: OP selects the row of OUT_CLEAR, and the command is two assignments. -/
theorem outClearEmptiesFifo : Obligations.OutClearEmptiesFifo :=
  ⟨fun _ hop => decode_of_mem_controlCommands (by decide) hop, exec_outClear⟩

/-- Settles O38: OP selects the row of CLR_ERR, and the command clears the two flags. -/
theorem clrErrClearsBothFlags : Obligations.ClrErrClearsBothFlags :=
  ⟨fun _ hop => decode_of_mem_controlCommands (by decide) hop, exec_clrErr⟩

/-- Settles O39: OP selects the row of SOFT_RESET, whose state is R45's table with the five fields that stay. -/
theorem softResetKeepsOnlyCfg : Obligations.SoftResetKeepsOnlyCfg :=
  ⟨fun _ hop => decode_of_mem_controlCommands (by decide) hop, exec_softReset⟩
end

section
/-! The flags (10_state R23; 60_exceptions R211, R213): of the effects of a command one leaves a code in ERR, two clear STICKY, and
no access but a command or a hardware reset touches either flag. -/

namespace Sys2Proof.Machine

section Flags

variable {i : Instr} {s t : State} {w : Word}

/-- Every effect but a raise leaves ERR 0. -/
theorem CommandEffect.of_err_ne (h : CommandEffect i s t) (herr : t.err ≠ 0) : ∃ c, t = flagsOnRaise c s := by
  cases h with
  | raised c => exact ⟨c, rfl⟩
  | _ => exact absurd rfl herr

/-- A command word that leaves a code in ERR raised, whether it was decoded or not (R84, R211). -/
theorem command_of_err_ne (h : command w s = .next t) (herr : t.err ≠ 0) : ∃ c, t = flagsOnRaise c s := by
  obtain ⟨i, -, hi⟩ | ⟨op, -, rfl⟩ := command_next h
  · exact (exec_effect hi).of_err_ne herr
  · exact ⟨_, rfl⟩

/-- A raise sets STICKY, and a command that completes leaves it alone (R213). -/
theorem CommandEffect.of_sticky_ne (h : CommandEffect i s t) (hs : s.sticky = true) (ht : t.sticky ≠ s.sticky) :
    i = .clrErr ∨ i = .softReset := by
  cases h with
  | flagsCleared hi => exact .inl hi
  | softReset hi => exact .inr hi
  | raised c => exact absurd hs.symm ht
  | _ => exact absurd rfl ht

theorem command_of_sticky_ne (h : command w s = .next t) (hs : s.sticky = true) (ht : t.sticky ≠ s.sticky) :
    decode w = .ok .clrErr ∨ decode w = .ok .softReset := by
  obtain ⟨i, hdec, hi⟩ | ⟨op, -, rfl⟩ := command_next h
  · rw [hdec]
    exact ((exec_effect hi).of_sticky_ne hs ht).imp (congrArg _) (congrArg _)
  · exact absurd hs.symm ht

/-- An aligned write is a command at the offset of CMD, and everywhere else it leaves both flags alone (R22, R44, R63). -/
theorem performWrite_flags {off : Nat} (h : performWrite off w s = .next t) :
    (off = 0x000 ∧ command w s = .next t) ∨ (t.err = s.err ∧ t.sticky = s.sticky) := by
  cases hr : regAt s.params.rxMax off with
  | none =>
    rw [performWrite_of_regAt_none w hr] at h
    cases h
    exact .inr ⟨rfl, rfl⟩
  | some r =>
    by_cases hcmd : r = .cmd
    · subst hcmd
      obtain rfl : 0x000 = off := offset_of_regAt hr
      exact .inl ⟨rfl, h⟩
    · rw [performWrite_of_regAt w hr hcmd] at h
      cases h
      obtain ⟨herr, hsticky, -⟩ := writeReg_frame w s r
      exact .inr ⟨herr, hsticky⟩

end Flags

end Sys2Proof.Machine

open Sys2Proof.Machine

/-- Settles O41: a code in ERR was raised, and a raise assigns the two flags alone. -/
theorem everyRaiseChangesOnlyTheFlags : Obligations.EveryRaiseChangesOnlyTheFlags := by
  intro w s t hcommand herr
  obtain ⟨c, rfl⟩ := command_of_err_ne hcommand herr
  rfl

/-- Settles O42: with nothing pending, by a read, or by a write elsewhere than CMD, STICKY stays what it is. -/
theorem stickyClearedOnlyByClearOrReset : Obligations.StickyClearedOnlyByClearOrReset := by
  intro s t hstep hs ht
  have hchanged : t.sticky ≠ s.sticky := by simp [hs, ht]
  obtain ⟨-, ⟨-, rfl⟩ | ⟨a, rest, hbus, ha⟩⟩ := step_next hstep
  · exact absurd rfl hchanged
  obtain ⟨rfl, -⟩ | ⟨off, rfl, -, rfl⟩ | ⟨off, w, rfl, -, hw⟩ := perform_next ha
  · exact .inl ⟨rest, hbus⟩
  · exact absurd rfl hchanged
  · obtain ⟨rfl, hcommand⟩ | ⟨-, hsame⟩ := performWrite_flags hw
    · exact .inr ⟨w, rest, hbus, command_of_sticky_ne hcommand hs hchanged⟩
    · exact absurd hsame hchanged
end

section
/-! The two resets (43_control R195, 70_reset R240): SOFT_RESET is the hardware reset with CFG put back. -/

namespace Sys2Proof.Machine

theorem perform_hardReset (s : State) : perform .hardReset s = .next (hardResetState s) := rfl

theorem softResetState_eq_hardResetState (s : State) :
    softResetState s = { hardResetState s with enable := s.enable, lock := s.lock } := rfl

/-- SOFT_RESET answers what the hardware reset answers, but for CFG (R195). -/
theorem exec_softReset_of_perform_hardReset {s t : State} (h : perform .hardReset s = .next t) :
    exec .softReset s = .next { t with enable := s.enable, lock := s.lock } := by
  rw [perform_hardReset] at h
  cases h
  rw [exec_softReset, softResetState_eq_hardResetState]

end Sys2Proof.Machine

open Sys2Proof.Machine

/-- Settles O57: the hardware reset answers R45's table, and SOFT_RESET the same with CFG put back. -/
theorem hardResetRestoresEveryItem : Obligations.HardResetRestoresEveryItem :=
  fun s => ⟨perform_hardReset s, exec_softReset_of_perform_hardReset (perform_hardReset s)⟩
end
